-- ==== Sys2Proof/Word.lean ====
section
/-! DEFINITION. The word and byte types, and the fixed groups of words the spec names: a block or key of
four words, a half of two, the two halves of a block (00_scope R5, R6, R8; glossary "Half").
Arithmetic on `Word` is BitVec's: `+` and `-` wrap modulo 2^32, `>>>` and `<<<` fill with zeros (R8, R9). -/

namespace Sys2Proof

/-- A datapath value: an unsigned 32-bit word (R8). -/
abbrev Word := BitVec 32

/-- A byte; byte 0 of a word is the least significant (R6). -/
abbrev Byte := BitVec 8

/-- Four words: KEY0..KEY3, DIN0..DIN3, DOUT0..DOUT3, W[0..3], a key, a block. -/
structure Quad where
  w0 : Word
  w1 : Word
  w2 : Word
  w3 : Word
deriving DecidableEq, Repr

/-- Half a block: the pair `(l0, l1)` or `(r0, r1)`; also the pair `(t0, t1)` of a round. -/
structure Half where
  x0 : Word
  x1 : Word
deriving DecidableEq, Repr

/-- The working words of a transform: left half `(l0, l1)`, right half `(r0, r1)`. -/
structure Halves where
  left : Half
  right : Half
deriving DecidableEq, Repr

/-- The round-key file's type: 32 words (10_state R32). The type bounds every index to 0..31 (R67). -/
abbrev RoundKeys := Vector Word 32

/-- Four zero words. -/
def Quad.zero : Quad := ⟨0, 0, 0, 0⟩

end Sys2Proof
end

