-- ==== Sys2Proof/Syntax.lean ====
section
/-! DEFINITION. The commands, one constructor per row of spec/opcode_table.json (30_encoding R81).
A word that is none of them is ILLEGAL (R85): it is no command, so it has no constructor here, and what the
core does when it accepts one (44_commands R193) stands in Machine/Ops.lean as `acceptIllegal`. -/

namespace Sys2Proof

/-- The six commands. The cipher operands are registers sampled at acceptance, so no constructor but KEY
carries a field (30_encoding R83). -/
inductive Instr where
  /-- Clear DONE, ERR and OVR. -/
  | nop
  /-- Construct with a key of `len` bytes (R82). A count of bytes, so a natural number; the encoding admits
  0 to 255 (WellFormed.lean). -/
  | key (len : Nat)
  /-- Encrypt DIN into DOUT. -/
  | enc
  /-- Decrypt DIN into DOUT. -/
  | dec
  /-- Overwrite RK with zeros. -/
  | wipe
  /-- DOUT0 becomes G(DIN0). -/
  | gsub
deriving DecidableEq, Repr

end Sys2Proof
end

