-- ==== Sys2Proof/WellFormed.lean ====
section
/-! DEFINITION. Which commands have an encoding: LEN is an unsigned 8-bit field, and lengths of 256 or more
cannot be expressed (30_encoding R82, R88). -/

namespace Sys2Proof

/-- The command can be written as a command word. -/
def Instr.wf : Instr → Bool
  | .nop => true
  | .key len => decide (len < 256)
  | .enc => true
  | .dec => true
  | .wipe => true
  | .gsub => true

end Sys2Proof
end

