-- ==== Sys2Proof/Decode.lean ====
section
/-! DEFINITION. Decoding of a command word, total, and the encoder (30_encoding R80 to R85). -/

namespace Sys2Proof

/-- Why a word is ILLEGAL. The spec has one ILLEGAL outcome (R84); the name records which line of R84's
function gave it, and nothing reads it. -/
inductive IllegalWord where
  /-- RES1 (31:16) or RES0 (7:4) is not 0. -/
  | reservedBits
  /-- LEN (15:8) is not 0 in a command other than KEY. -/
  | lenOutsideKey
  /-- OP is 0x6 to 0xF. -/
  | reservedOpcode
deriving DecidableEq, Repr

/-- What a command word stands for. -/
inductive Decoded where
  | instr (i : Instr)
  | illegal (why : IllegalWord)
deriving DecidableEq, Repr

/-- OP, bits 3:0 (R80). -/
def opField (cmd : Word) : BitVec 4 := cmd.extractLsb' 0 4

/-- RES0, bits 7:4. -/
def res0Field (cmd : Word) : BitVec 4 := cmd.extractLsb' 4 4

/-- LEN, bits 15:8. -/
def lenField (cmd : Word) : BitVec 8 := cmd.extractLsb' 8 8

/-- RES1, bits 31:16. -/
def res1Field (cmd : Word) : BitVec 16 := cmd.extractLsb' 16 16

/-- The opcode of a command other than KEY, once the reserved fields and LEN are known to be 0. -/
def decodeOp (op : BitVec 4) : Decoded :=
  if op = 0x0 then .instr .nop
  else if op = 0x2 then .instr .enc
  else if op = 0x3 then .instr .dec
  else if op = 0x4 then .instr .wipe
  else if op = 0x5 then .instr .gsub
  else .illegal .reservedOpcode

/-- R84's function, in its order. -/
def decode (cmd : Word) : Decoded :=
  if res1Field cmd ≠ 0 ∨ res0Field cmd ≠ 0 then .illegal .reservedBits
  else if opField cmd = 0x1 then .instr (.key (lenField cmd).toNat)
  else if lenField cmd ≠ 0 then .illegal .lenOutsideKey
  else decodeOp (opField cmd)

/-- A command word from OP and LEN, the reserved fields 0 (R80). -/
def commandWord (op : BitVec 4) (len : BitVec 8) : Word :=
  (len.setWidth 32 <<< 8) ||| op.setWidth 32

/-- The word of a command (R81, R88). A length of 256 or more has no word; only its low 8 bits are kept. -/
def encode : Instr → Word
  | .nop => commandWord 0x0 0
  | .key len => commandWord 0x1 (BitVec.ofNat 8 len)
  | .enc => commandWord 0x2 0
  | .dec => commandWord 0x3 0
  | .wipe => commandWord 0x4 0
  | .gsub => commandWord 0x5 0

/-- The word whose bits, as spec/opcode_table.json numbers them, are the low `nbits` of `w`; higher bits are 0.
A command is one 32-bit value written whole to one slot (20_memory R59), so no byte order is involved. -/
def tableWord (nbits w : Nat) : Word := BitVec.ofNat 32 (w % 2 ^ nbits)

/-- The command this decoder reads from those bits; none where it answers ILLEGAL. -/
def decodeTableWord (nbits w : Nat) : Option Instr :=
  match decode (tableWord nbits w) with
  | .instr i => some i
  | .illegal _ => none

end Sys2Proof
end

