-- ==== Sys2Proof/Machine/Bits.lean ====
section
/-! DEFINITION. Bytes of words, big-endian word assembly, and byte strings of keys and blocks (00_scope R6, R7;
20_memory R56, R57). -/

namespace Sys2Proof.Machine

/-- Byte `i` of a word: bits 8i+7:8i (R6). -/
def byteOf (v : Word) (i : Nat) : Byte := v.extractLsb' (8 * i) 8

/-- A word from its four bytes, the most significant first. -/
def packBytes (b3 b2 b1 b0 : Byte) : Word :=
  b3.setWidth 32 <<< 24 ||| b2.setWidth 32 <<< 16 ||| b1.setWidth 32 <<< 8 ||| b0.setWidth 32

/-- `be32(B, j)`: bytes 4j to 4j+3 of a byte string, the first most significant (R7). -/
def be32 (B : List Byte) (j : Nat) : Word :=
  packBytes (B.getD (4 * j) 0) (B.getD (4 * j + 1) 0) (B.getD (4 * j + 2) 0) (B.getD (4 * j + 3) 0)

/-- `unbe32(w)`: the four bytes of a word, the most significant first (R7). -/
def unbe32 (w : Word) : List Byte := [byteOf w 3, byteOf w 2, byteOf w 1, byteOf w 0]

/-- The 16-byte string of four words (R56, R57; the K of 44_commands R184). -/
def quadBytes (q : Quad) : List Byte := unbe32 q.w0 ++ unbe32 q.w1 ++ unbe32 q.w2 ++ unbe32 q.w3

/-- The four words of a 16-byte string (R56). -/
def quadOfBytes (B : List Byte) : Quad := ⟨be32 B 0, be32 B 1, be32 B 2, be32 B 3⟩

end Sys2Proof.Machine
end

