-- ==== Sys2Proof/Config.lean ====
section
/-! DEFINITION. The OPEN parameters of the spec (00_scope R5, 20_memory R50 and R58, 70_reset R261): constants
with no body, so that nothing can be proved of a value and every statement holds for all of them. -/

namespace Sys2Proof

/-- The commands that need the engine, whose latencies the spec names. -/
inductive EngineCommand where
  | key
  | enc
  | dec
  | wipe
  | gsub
deriving DecidableEq, Repr

/-- SEED_BASE: the byte address at which the platform places slot 0 (R50, D2). -/
opaque Config.seedBase : Nat

/-- HOST_BUS_ENDIAN: which byte lane of a slot (lane 0 = bits 7:0) the byte at each of the slot's four
addresses is (R58, D28). Any assignment is admitted; big- and little-endian are two of them (log 8). -/
opaque Config.hostBusLane : Equiv.Perm (Fin 4)

/-- LAT_KEY, LAT_ENC, LAT_DEC, LAT_WIPE, LAT_GSUB: clock cycles from acceptance to completion, at least 1 and
the same for all data (R5, R261, R262, D17). The model has no time and reads none of them (log 9). -/
opaque Config.latency : EngineCommand → ℕ+

end Sys2Proof
end

