-- ==== Sys2Proof/Machine/State.lean ====
section
/-! DEFINITION. The state of the core (10_state R20), the events that step it (R37), and why a step can stop. -/

namespace Sys2Proof.Machine

/-- The command in flight (10_state R33). -/
inductive Inflight where
  | none
  | key
  | enc
  | dec
  | wipe
  | gsub
deriving DecidableEq, Repr

/-- The port's input signals in one clock cycle (20_memory R51, 30_encoding R86). -/
structure Signals where
  rst : Bool
  rdEn : Bool
  wrEn : Bool
  addr : BitVec 6
  wdata : Word
deriving DecidableEq, Repr

/-- One turn of one agent (10_state R37). -/
inductive Event where
  /-- A rising edge of `clk` with these port inputs: a reset, a read, a write, an idle cycle, or the forbidden
  cycle with both enables (R86). -/
  | cycle (sig : Signals)
  /-- A read of `size` bytes at a byte address of the platform's bus (20_memory R50, R59). -/
  | busRead (addr size : Nat)
  /-- A write of the listed bytes, at rising addresses from `addr`, on the platform's bus. -/
  | busWrite (addr : Nat) (bytes : List Byte)
  /-- The engine's turn: it completes the command in flight, if there is one (44_commands R181). -/
  | engine
deriving DecidableEq, Repr

/-- Everything the spec gives the core (R20), and two fields of the model: `rdata` and `inputs`.
STATUS.BUSY is derived (R23), CMD has no storage (R28), ID0..ID2 are hard-wired (R21). -/
structure State where
  /-- INFLIGHT (R33). -/
  inflight : Inflight
  /-- STATUS.DONE (R24). -/
  done : Bool
  /-- STATUS.KEYV (R25). -/
  keyv : Bool
  /-- STATUS.OVR (R26). -/
  ovr : Bool
  /-- STATUS.ERR (R27). -/
  err : BitVec 4
  /-- KEY0..KEY3 (R29). -/
  key : Quad
  /-- DIN0..DIN3 (R30). -/
  din : Quad
  /-- DOUT0..DOUT3 (R31). -/
  dout : Quad
  /-- RK[0..31] (R32). -/
  rk : RoundKeys
  /-- W[0..3], the operands sampled at acceptance (R33). -/
  w : Quad
  /-- The port's output signal `rdata` in its last cycle (20_memory R51; log 3). -/
  rdata : Word
  /-- The turns still to come, oldest first: the host's transactions and where the engine's step falls among
  them (10_state R37, 20_memory R62; log 1). -/
  inputs : List Event
deriving DecidableEq, Repr

/-- Why the machine stops with a fault. There is no constructor: no rule has a fault or a stuck state
(93_implementation_defined part 2), no datapath operation can fault (60_exceptions R225), completion never
fails (R232), and a command's errors are codes in STATUS with a next state (R221). Safe: nothing raises it. -/
inductive Fault where
deriving DecidableEq, Repr

/-- Why a step has no meaning. -/
inductive Refusal where
  /-- An instruction with no meaning in this model; `exec` alone may raise it, and no arm of it does. Safe. -/
  | notModelled (mnemonic : String)
  /-- Raised by a port cycle with rd_en = 1 and wr_en = 1: "has no meaning. A model refuses it" (70_reset R253b).
  Safe: nothing can be proved of such a trace. -/
  | bothEnables
  /-- Raised by a bus access that touches the core's window and is not one aligned 32-bit slot (20_memory R59,
  70_reset R253c). Safe: nothing can be proved of such a trace. -/
  | narrowOrMisaligned
deriving DecidableEq, Repr

/-- The state after reset (70_reset R251). No turn is listed: the host's transactions come from outside. -/
def State.reset : State where
  inflight := .none
  done := false
  keyv := false
  ovr := false
  err := 0
  key := Quad.zero
  din := Quad.zero
  dout := Quad.zero
  rk := Vector.replicate 32 0
  w := Quad.zero
  rdata := 0
  inputs := []

end Sys2Proof.Machine
end

