-- ==== Sys2Proof/Machine/Flags.lean ====
section
/-! DEFINITION. The STATUS fields (10_state R22 to R27) and the error codes (60_exceptions R220). -/

namespace Sys2Proof.Machine

/-- Code 1: KEY with LEN other than 16. -/
def errInvalidKeyLength : BitVec 4 := 1

/-- Code 2: ENC or DEC with KEYV = 0. -/
def errNoKey : BitVec 4 := 2

/-- Code 3: a word that decodes as ILLEGAL. -/
def errIllegalCmd : BitVec 4 := 3

/-- STATUS.BUSY: 1 exactly when INFLIGHT is not NONE (R23). -/
def State.busy (s : State) : Bool := decide (s.inflight ≠ .none)

/-- A flag widened to a word. -/
def flagWord (b : Bool) : Word := (BitVec.ofBool b).setWidth 32

/-- What a read of STATUS returns: ERR 7:4, OVR 3, KEYV 2, DONE 1, BUSY 0, the rest 0 (R22, 20_memory R54). -/
def statusWord (s : State) : Word :=
  s.err.setWidth 32 <<< 4 ||| flagWord s.ovr <<< 3 ||| flagWord s.keyv <<< 2 ||| flagWord s.done <<< 1
    ||| flagWord s.busy

/-- The clears every accepted command does first (44_commands R180). -/
def State.clearReport (s : State) : State := { s with done := false, err := 0, ovr := false }

/-- OVR becomes 1 (R26). -/
def State.setOverrun (s : State) : State := { s with ovr := true }

/-- KEYV becomes `b` (R25). -/
def State.setKeyv (b : Bool) (s : State) : State := { s with keyv := b }

end Sys2Proof.Machine
end

