-- ==== Sys2Proof/Machine/Operands.lean ====
section
/-! DEFINITION. The operands of commands, sampled into W at acceptance (30_encoding R83, 10_state R33), the words of
a register group by number, and the writes of result registers. -/

namespace Sys2Proof.Machine

/-- Word `j` of a register group. -/
def wordAt (q : Quad) (j : Fin 4) : Word :=
  if j = 0 then q.w0 else if j = 1 then q.w1 else if j = 2 then q.w2 else q.w3

/-- A register group with word `j` replaced. -/
def setWord (q : Quad) (j : Fin 4) (v : Word) : Quad :=
  if j = 0 then { q with w0 := v }
  else if j = 1 then { q with w1 := v }
  else if j = 2 then { q with w2 := v }
  else { q with w3 := v }

/-- KEY's operands: W takes KEY0..KEY3, which then become 0 (44_commands R183). -/
def State.sampleKey (s : State) : State := { s with w := s.key, key := Quad.zero }

/-- ENC's and DEC's operands: W takes DIN0..DIN3 (R185, R187). -/
def State.sampleDin (s : State) : State := { s with w := s.din }

/-- GSUB's operand: W[0] takes DIN0, W[1..3] keep their values (R191). -/
def State.sampleDin0 (s : State) : State := { s with w := { s.w with w0 := s.din.w0 } }

/-- All 32 round-key words at once (R184, R190). -/
def State.setRoundKeys (rk : RoundKeys) (s : State) : State := { s with rk := rk }

/-- All four DOUT words together (10_state R31). -/
def State.setDout (q : Quad) (s : State) : State := { s with dout := q }

/-- A host write of KEYj (20_memory R55). -/
def State.setKeyWord (j : Fin 4) (v : Word) (s : State) : State := { s with key := setWord s.key j v }

/-- A host write of DINj (20_memory R55). -/
def State.setDinWord (j : Fin 4) (v : Word) (s : State) : State := { s with din := setWord s.din j v }

/-- The port's output signal in this cycle (20_memory R51). -/
def State.setRdata (v : Word) (s : State) : State := { s with rdata := v }

/-- The turns still to come. -/
def State.setInputs (l : List Event) (s : State) : State := { s with inputs := l }

end Sys2Proof.Machine
end

