-- ==== Sys2Proof/Machine/Ops.lean ====
section
/-! DEFINITION. The operations every command shares: acceptance (44_commands R180), raise Error (60_exceptions
R221), the start and the end of a command's time in flight (10_state R33, 44_commands R181), and Reset
(70_reset R251). An error has no handler and no return (R221, R224): the next accepted command clears it. -/

namespace Sys2Proof.Machine

/-- `raise Error(code)`: ERR and DONE, and no other state (60_exceptions R221). -/
def State.raiseError (code : BitVec 4) (s : State) : State := { s with err := code, done := true }

/-- INFLIGHT is set to the accepted command; STATUS.BUSY becomes 1 (10_state R33). -/
def State.launch (op : Inflight) (s : State) : State := { s with inflight := op }

/-- The end of every completion: INFLIGHT becomes NONE and DONE becomes 1 (44_commands R181). -/
def State.finish (s : State) : State := { s with inflight := .none, done := true }

/-- Acceptance (44_commands R180). While a command is in flight the write is dropped: OVR becomes 1 and nothing
else changes. Otherwise the report is cleared and the command's own rule follows, in the same step. -/
def accept (rule : State → State) (s : State) : State :=
  if s.inflight = .none then rule s.clearReport else s.setOverrun

/-- Acceptance of a word that decodes as ILLEGAL (44_commands R193). -/
def acceptIllegal (s : State) : State := accept (State.raiseError errIllegalCmd) s

/-- The Reset step (70_reset R251): every element takes its reset value, so a command in flight is aborted. The
turns still to come are not the core's state and stay. -/
def resetCore (s : State) : State := { State.reset with inputs := s.inputs }

end Sys2Proof.Machine
end

