-- ==== Sys2Proof/Machine/Commands.lean ====
section
/-! DEFINITION. The meaning of each command at acceptance: what a CMD write of its word does as one atomic step
(44_commands R180, R182 to R191). A command that needs the engine is completed by a later step of the engine
(Machine/Engine.lean). Every meaning answers a next state: a command's error is a code in STATUS (60_exceptions
R221). -/

namespace Sys2Proof.Machine

/-- NOP: R180's clears and nothing else (R182). -/
def execNop (s : State) : Host.Outcome State Fault Refusal := .next (accept id s)

/-- KEY's own rule (R183): any LEN but 16 is INVALID_KEY_LENGTH and changes nothing else. -/
def acceptKey (len : Nat) (s : State) : State :=
  if len = 16 then (s.sampleKey.setKeyv false).launch .key else s.raiseError errInvalidKeyLength

/-- KEY (R183). -/
def execKey (len : Nat) (s : State) : Host.Outcome State Fault Refusal := .next (accept (acceptKey len) s)

/-- The rule ENC and DEC share: NO_KEY when KEYV = 0, else DIN is sampled (R185, R187). -/
def acceptTransform (op : Inflight) (s : State) : State :=
  if s.keyv = false then s.raiseError errNoKey else s.sampleDin.launch op

/-- ENC (R185). -/
def execEnc (s : State) : Host.Outcome State Fault Refusal := .next (accept (acceptTransform .enc) s)

/-- DEC (R187). -/
def execDec (s : State) : Host.Outcome State Fault Refusal := .next (accept (acceptTransform .dec) s)

/-- WIPE's own rule (R189). -/
def acceptWipe (s : State) : State := (s.setKeyv false).launch .wipe

/-- WIPE (R189). -/
def execWipe (s : State) : Host.Outcome State Fault Refusal := .next (accept acceptWipe s)

/-- GSUB's own rule (R191). -/
def acceptGsub (s : State) : State := s.sampleDin0.launch .gsub

/-- GSUB (R191). -/
def execGsub (s : State) : Host.Outcome State Fault Refusal := .next (accept acceptGsub s)

end Sys2Proof.Machine
end

