-- ==== Sys2Proof/Machine/Dispatch.lean ====
section
/-! DEFINITION. One arm per command: the effect of accepting it (44_commands R180). -/

namespace Sys2Proof.Machine

def exec (i : Instr) (s : State) : Host.Outcome State Fault Refusal :=
  match i with
  | .nop => Sys2Proof.Machine.execNop s
  | .key len => Sys2Proof.Machine.execKey len s
  | .enc => Sys2Proof.Machine.execEnc s
  | .dec => Sys2Proof.Machine.execDec s
  | .wipe => Sys2Proof.Machine.execWipe s
  | .gsub => Sys2Proof.Machine.execGsub s

end Sys2Proof.Machine
end

