-- ==== Sys2Proof/Machine/Tables.lean ====
section
/-! DEFINITION. The constant tables: the 8-bit S-boxes, the four word tables built from them, and the round
constants (40_substitution R100, R101, R103; 41_key_schedule R120). They are ROM, not state (10_state R35).
The values are the SEED standard's, as the spec prints them (D26; log 10). -/

namespace Sys2Proof.Machine

/-- SB1, one row of R100's table a line: the first two hexadecimal digits of row `r` are SB1[16r]. -/
def sb1Rows : List (BitVec 128) :=
  [0xA985D6D3541DAC255D43181E51FCCA63,
      0x2844209DE0E2C817A58F037BBB13D2EE,
      0x708C3FA832DDF674EC950B575C5BBD01,
      0x241C739810CCF2D92CE772839BD186C9]
  ++ [0x6050A3EB0DB69E4FB75AC678A612AFD5,
      0x61C3B441527D8D081F9900190453F7E1,
      0xFD762F27B08B0EABA26E934D697C090A,
      0xBFEFF3C58714FE64DE2E4B1A06216B66]
  ++ [0x02F5928A0CB37ED07A4796E52680ADDF,
      0xA13037AE36152238F4A7454C81E98497,
      0x35CBCE3C7111C78975FBDAF8945982C4,
      0xFF493967C0CFD7B80F8E4223916CDBA4]
  ++ [0x34F148C26F3D2D40BE3EBCC1AABA4E55,
      0x3BDC687F9CD84A5677A0ED46B52B65FA,
      0xE3B9B19F5EF9E6B231EA6D5FE4F0CD88,
      0x163A58D462290733E81B0579906A2A9A]

/-- SB2, laid out in the same way (R101). -/
def sb2Rows : List (BitVec 128) :=
  [0x38E82DA6CFDEB3B8AF6055C7446F6B5B,
      0xC36233B529A0E2A7D39111061CBC364B,
      0xEF886CA817C416F4C245E1D63F3D8E98,
      0x284EF63EA5F90DDFD82B667A272FF172]
  ++ [0x42D441C07367AC8BF7AD801FCA2CAA34,
      0xD20BEEE95D9418F857AE08C513CD86B9,
      0xFF7DC131F58A6AB1D120D70222046871,
      0x07DB9D9961BEE659DD5190DC9AA3ABD0]
  ++ [0x810F471AE3EC8DBF967B5CA2A163234D,
      0xC89E9C3A0C2EBA6E9F5AF292F34978CC,
      0x15FB70757F351003646DC674D5B4EA09,
      0x7619FE4012E0BD05FA01F02A5EA95643]
  ++ [0x8514899BB0E5487997FC1E82218C1B5F,
      0x7754B21D254F0046ED5852EB7EDAC9FD,
      0x3095653CB6E4BB7C0E50392632846993,
      0x37E724A4CB530A87D94C838FCE3B4AB7]

/-- The entry in row `x / 16` and column `x mod 16` of a printed table. -/
def tableEntry (rows : List (BitVec 128)) (x : Byte) : Byte :=
  (rows.getD (x.toNat / 16) 0).extractLsb' (8 * (15 - x.toNat % 16)) 8

/-- The S-box SB1 (R100). -/
def SB1 (x : Byte) : Byte := tableEntry sb1Rows x

/-- The S-box SB2 (R101). -/
def SB2 (x : Byte) : Byte := tableEntry sb2Rows x

/-- The byte masks m[0..3], the index taken modulo 4 (R103). -/
def mask (k : Nat) : Byte := ([0xFC, 0xF3, 0xCF, 0x3F] : List Byte).getD (k % 4) 0

/-- Word table `i` at a byte whose S-box value is `y`: byte `j` is `y & m[(i + j) mod 4]` (R103). -/
def ssWord (i : Nat) (y : Byte) : Word :=
  packBytes (y &&& mask (i + 3)) (y &&& mask (i + 2)) (y &&& mask (i + 1)) (y &&& mask i)

/-- SS0, built from SB1 (R103). -/
def SS0 (x : Byte) : Word := ssWord 0 (SB1 x)

/-- SS1, built from SB2 (R103). -/
def SS1 (x : Byte) : Word := ssWord 1 (SB2 x)

/-- SS2, built from SB1 (R103). -/
def SS2 (x : Byte) : Word := ssWord 2 (SB1 x)

/-- SS3, built from SB2 (R103). -/
def SS3 (x : Byte) : Word := ssWord 3 (SB2 x)

/-- KC[0..15], the round constants (R120). -/
def kcTable : List Word :=
  [0x9E3779B9, 0x3C6EF373, 0x78DDE6E6, 0xF1BBCDCC]
  ++ [0xE3779B99, 0xC6EF3733, 0x8DDE6E67, 0x1BBCDCCF]
  ++ [0x3779B99E, 0x6EF3733C, 0xDDE6E678, 0xBBCDCCF1]
  ++ [0x779B99E3, 0xEF3733C6, 0xDE6E678D, 0xBCDCCF1B]

/-- KC[i] (R120); a round index is 0 to 15. -/
def KC (i : Nat) : Word := kcTable.getD i 0

end Sys2Proof.Machine
end

