-- ==== Sys2Proof/Machine/Datapath.lean ====
section
/-! DEFINITION. The cipher's computations: the substitution function G (40_substitution), the key schedule
(41_key_schedule), the Feistel round (42_round) and the block transforms (43_block_transform). All are pure
functions of their operands and the constant tables; none has an error (60_exceptions R225). -/

namespace Sys2Proof.Machine

/-- `G(v) = SS0[b0] ^ SS1[b1] ^ SS2[b2] ^ SS3[b3]` (R104). -/
def G (v : Word) : Word :=
  SS0 (byteOf v 0) ^^^ SS1 (byteOf v 1) ^^^ SS2 (byteOf v 2) ^^^ SS3 (byteOf v 3)

/-! ### Key schedule -/

/-- Step 2e of round `i`: an even round rotates `(k0, k1)` right by 8, an odd one `(k2, k3)` left by 8; both new
words come from the old ones (R121, R123). -/
def rotateKey (i : Nat) (k : Quad) : Quad :=
  if i % 2 = 0 then
    { k with w0 := (k.w0 >>> 8) ||| (k.w1 <<< 24), w1 := (k.w1 >>> 8) ||| (k.w0 <<< 24) }
  else
    { k with w2 := (k.w2 <<< 8) ||| (k.w3 >>> 24), w3 := (k.w3 <<< 8) ||| (k.w2 >>> 24) }

/-- The key words at the start of round `i`, after the rotations of rounds 0 to i-1 (R123). -/
def keyWordsAt : Nat → Quad → Quad
  | 0, k => k
  | i + 1, k => rotateKey i (keyWordsAt i k)

/-- Rounds `i`, `i+1`, … with the listed constants, from the key words at the start of round `i`: each emits
`G(t0)` and `G(t1)` (R121 steps 2a to 2e). -/
def scheduleFrom : Nat → List Word → Quad → List Word
  | _, [], _ => []
  | i, c :: cs, k =>
    G ((k.w0 + k.w2) - c) :: G ((k.w1 - k.w3) + c) :: scheduleFrom (i + 1) cs (rotateKey i k)

/-- Each round emits two words. -/
theorem scheduleFrom_length (i : Nat) (cs : List Word) (k : Quad) :
    (scheduleFrom i cs k).length = 2 * cs.length := by
  induction cs generalizing i k with
  | nil => rfl
  | cons c cs ih => simp only [scheduleFrom, List.length_cons, ih]; omega

/-- The schedule of four key words: 16 rounds, 32 words in emission order (R121, R125). -/
def expandKey (k : Quad) : RoundKeys :=
  ⟨(scheduleFrom 0 kcTable k).toArray, by rw [List.size_toArray, scheduleFrom_length]; rfl⟩

/-- `derive(K)` for a 16-byte key: split into four big-endian words, then expand (R121, R122). -/
def derive (K : List Byte) : RoundKeys := expandKey (quadOfBytes K)

/-! ### Round -/

/-- `F(r0, r1, ka, kb)`, steps 1 to 8 (R140). -/
def F (r0 r1 ka kb : Word) : Half :=
  let t0 := r0 ^^^ ka
  let t1 := r1 ^^^ kb
  let t1 := t1 ^^^ t0
  let t1 := G t1
  let t0 := t0 + t1
  let t0 := G t0
  let t1 := t1 + t0
  let t1 := G t1
  let t0 := t0 + t1
  ⟨t0, t1⟩

/-- The exclusive or of two halves, word by word (step 9 of R141). -/
def xorHalf (a b : Half) : Half := ⟨a.x0 ^^^ b.x0, a.x1 ^^^ b.x1⟩

/-- `round(L, R, o)`: the destination half after a round with the source half and the key words RK[o] and
RK[o+1] (R141). The source half is a value, so the halves cannot alias (R142). -/
def feistelRound (rk : RoundKeys) (dst src : Half) (o : Fin 31) : Half :=
  xorHalf dst (F src.x0 src.x1 (rk[o.val]'(by omega)) (rk[o.val + 1]'(by omega)))

/-! ### Block transforms -/

/-- `l0 = W[0]`, `l1 = W[1]`, `r0 = W[2]`, `r1 = W[3]` (R160). -/
def splitBlock (b : Quad) : Halves := ⟨⟨b.w0, b.w1⟩, ⟨b.w2, b.w3⟩⟩

/-- The output words `(r0, r1, l0, l1)`: the halves are emitted swapped (R163, conflict C4). -/
def joinBlock (h : Halves) : Quad := ⟨h.right.x0, h.right.x1, h.left.x0, h.left.x1⟩

/-- One iteration of encryption: L by offset o, then R by offset o + 2 from the new L (R161). -/
def encryptPair (rk : RoundKeys) (h : Halves) (o : Fin 29) : Halves :=
  let l := feistelRound rk h.left h.right ⟨o.val, by omega⟩
  let r := feistelRound rk h.right l ⟨o.val + 2, by omega⟩
  ⟨l, r⟩

/-- One iteration of decryption: L by offset o + 2, then R by offset o from the new L (R162, conflict C1). -/
def decryptPair (rk : RoundKeys) (h : Halves) (o : Fin 29) : Halves :=
  let l := feistelRound rk h.left h.right ⟨o.val + 2, by omega⟩
  let r := feistelRound rk h.right l ⟨o.val, by omega⟩
  ⟨l, r⟩

/-- The offsets of encryption's eight iterations (R161). -/
def encryptOffsets : List (Fin 29) := [0, 4, 8, 12, 16, 20, 24, 28]

/-- The offsets of decryption's eight iterations (R162). -/
def decryptOffsets : List (Fin 29) := [28, 24, 20, 16, 12, 8, 4, 0]

/-- `encrypt(l0, l1, r0, r1)` (R161). -/
def encrypt (rk : RoundKeys) (b : Quad) : Quad :=
  joinBlock (encryptOffsets.foldl (encryptPair rk) (splitBlock b))

/-- `decrypt(l0, l1, r0, r1)` (R162). -/
def decrypt (rk : RoundKeys) (b : Quad) : Quad :=
  joinBlock (decryptOffsets.foldl (decryptPair rk) (splitBlock b))

end Sys2Proof.Machine
end

