-- ==== Sys2Proof/Machine/Engine.lean ====
section
/-! DEFINITION. The engine's one step, the completion of the command in flight (44_commands R181). The bodies read
only W, RK and the constant tables. -/

namespace Sys2Proof.Machine

/-- KEY's completion body (R184): RK takes the schedule of the 16 key bytes in W, KEYV becomes 1. -/
def completeKey (s : State) : State := (s.setRoundKeys (derive (quadBytes s.w))).setKeyv true

/-- ENC's completion body (R186). -/
def completeEnc (s : State) : State := s.setDout (encrypt s.rk s.w)

/-- DEC's completion body (R188). -/
def completeDec (s : State) : State := s.setDout (decrypt s.rk s.w)

/-- WIPE's completion body (R190). -/
def completeWipe (s : State) : State := s.setRoundKeys (Vector.replicate 32 0)

/-- GSUB's completion body (R192). -/
def completeGsub (s : State) : State := s.setDout ⟨G s.w.w0, 0, 0, 0⟩

/-- The engine's step (R181). It is enabled only while a command is in flight; its turn changes nothing
otherwise. -/
def engineStep (s : State) : State :=
  match s.inflight with
  | .none => s
  | .key => (completeKey s).finish
  | .enc => (completeEnc s).finish
  | .dec => (completeDec s).finish
  | .wipe => (completeWipe s).finish
  | .gsub => (completeGsub s).finish

end Sys2Proof.Machine
end

