-- ==== Sys2Proof/Machine/Port.lean ====
section
/-! DEFINITION. The register port: the slot map (20_memory R53), what a read returns (R54) and a write does (R55),
the clock cycle that carries a transaction (R51, 30_encoding R86, 70_reset R253), and a byte-addressed bus in
front of it (20_memory R50, R58, R59). -/

namespace Sys2Proof.Machine

/-- The named slots (20_memory R53). -/
inductive PortReg where
  | id (j : Fin 3)
  | status
  | cmd
  | key (j : Fin 4)
  | din (j : Fin 4)
  | dout (j : Fin 4)
deriving DecidableEq, Repr

/-- The word index of a named slot (R53). -/
def PortReg.index : PortReg → BitVec 6
  | .id j => BitVec.ofNat 6 j.val
  | .status => 3
  | .cmd => 4
  | .key j => BitVec.ofNat 6 (8 + j.val)
  | .din j => BitVec.ofNat 6 (12 + j.val)
  | .dout j => BitVec.ofNat 6 (16 + j.val)

/-- The name of a slot; none for a reserved one (R53: 5 to 7 and 20 to 63). -/
def slotAt (idx : BitVec 6) : Option PortReg :=
  if h : idx.toNat < 3 then some (.id ⟨idx.toNat, h⟩)
  else if idx.toNat = 3 then some .status
  else if idx.toNat = 4 then some .cmd
  else if h : 8 ≤ idx.toNat ∧ idx.toNat < 12 then some (.key ⟨idx.toNat - 8, by omega⟩)
  else if h : 12 ≤ idx.toNat ∧ idx.toNat < 16 then some (.din ⟨idx.toNat - 12, by omega⟩)
  else if h : 16 ≤ idx.toNat ∧ idx.toNat < 20 then some (.dout ⟨idx.toNat - 16, by omega⟩)
  else none

/-- ID0, ID1, ID2: the bytes of "KISA-SEED" and three zero bytes (10_state R21). -/
def idWord (j : Fin 3) : Word :=
  if j = 0 then 0x4B495341 else if j = 1 then 0x2D534545 else 0x44000000

/-- What a read of a named slot returns (R54): write-only slots read as 0. -/
def readReg (s : State) : PortReg → Word
  | .id j => idWord j
  | .status => statusWord s
  | .cmd => 0
  | .key _ => 0
  | .din j => wordAt s.din j
  | .dout j => wordAt s.dout j

/-- The value `PortRead(idx)` returns (R54); reserved slots read as 0. -/
def portRead (idx : BitVec 6) (s : State) : Word :=
  match slotAt idx with
  | some r => readReg s r
  | none => 0

/-- A CMD write: the word's command is accepted or dropped (44_commands R180). -/
def writeCmd (v : Word) (s : State) : Host.Outcome State Fault Refusal :=
  match decode v with
  | .instr i => exec i s
  | .illegal _ => .next (acceptIllegal s)

/-- What a write of a named slot does (R55): read-only slots ignore it. -/
def writeReg (r : PortReg) (v : Word) (s : State) : Host.Outcome State Fault Refusal :=
  match r with
  | .id _ => .next s
  | .status => .next s
  | .cmd => writeCmd v s
  | .key j => .next (s.setKeyWord j v)
  | .din j => .next (s.setDinWord j v)
  | .dout _ => .next s

/-- `PortWrite(idx, v)` (R55); reserved slots ignore it. -/
def portWrite (idx : BitVec 6) (v : Word) (s : State) : Host.Outcome State Fault Refusal :=
  match slotAt idx with
  | some r => writeReg r v s
  | none => .next s

/-- The signals of `PortRead(idx)` (30_encoding R86). -/
def Signals.read (idx : BitVec 6) : Signals := ⟨false, true, false, idx, 0⟩

/-- The signals of `PortWrite(idx, v)` (30_encoding R86). -/
def Signals.write (idx : BitVec 6) (v : Word) : Signals := ⟨false, false, true, idx, v⟩

/-- The signals of an idle cycle (30_encoding R86). -/
def Signals.idle : Signals := ⟨false, false, false, 0, 0⟩

/-- The signals of a reset cycle with no transaction (70_reset R250). -/
def Signals.reset : Signals := ⟨true, false, false, 0, 0⟩

/-- One clock cycle of the port (20_memory R51). Both enables are refused (70_reset R253b; with rst = 1 too, log 6).
With rst = 1 the core resets, a write is ignored and a read gives 0 (R250, R253a). `rdata` is 0 in a cycle without
a read. -/
def portCycle (sig : Signals) (s : State) : Host.Outcome State Fault Refusal :=
  if sig.rdEn = true ∧ sig.wrEn = true then .refused .bothEnables
  else if sig.rst = true then .next (resetCore s)
  else if sig.wrEn = true then portWrite sig.addr sig.wdata (s.setRdata 0)
  else if sig.rdEn = true then .next (s.setRdata (portRead sig.addr s))
  else .next (s.setRdata 0)

/-! ### A byte-addressed bus -/

/-- Where an access of `size` bytes at a byte address falls. -/
inductive BusTarget where
  /-- No byte of it lies in the core's window. -/
  | elsewhere
  /-- It is exactly one slot. -/
  | slot (idx : BitVec 6)
  /-- It touches the window and is not one aligned slot. -/
  | misfit
deriving DecidableEq, Repr

/-- Slot `idx` stands at `base + 4 * idx` (20_memory R50), and only an access of 32 bits aligned to 4 bytes reaches
it (R59, 70_reset R253c). -/
def busTarget (base addr size : Nat) : BusTarget :=
  if addr + size ≤ base ∨ base + 256 ≤ addr then .elsewhere
  else if size = 4 ∧ addr % 4 = 0 ∧ base ≤ addr ∧ (addr - base) % 4 = 0 then
    .slot (BitVec.ofNat 6 ((addr - base) / 4))
  else .misfit

/-- The word a bus write of four bytes carries: the byte at address k of the slot is byte lane `lane k` (R58). -/
def busWord (lane : Equiv.Perm (Fin 4)) (bytes : List Byte) : Word :=
  packBytes (bytes.getD (lane.symm 3).val 0) (bytes.getD (lane.symm 2).val 0)
    (bytes.getD (lane.symm 1).val 0) (bytes.getD (lane.symm 0).val 0)

/-- The four bytes a bus read shows for a word, at rising addresses (R58). -/
def busBytes (lane : Equiv.Perm (Fin 4)) (v : Word) : List Byte :=
  [byteOf v (lane 0).val, byteOf v (lane 1).val, byteOf v (lane 2).val, byteOf v (lane 3).val]

/-- A bus access becomes a port transaction, is refused, or is not for the core, whose port is then idle. -/
def busAccess (base addr size : Nat) (sig : BitVec 6 → Signals) (s : State) : Host.Outcome State Fault Refusal :=
  match busTarget base addr size with
  | .elsewhere => portCycle Signals.idle s
  | .slot idx => portCycle (sig idx) s
  | .misfit => .refused .narrowOrMisaligned

/-- One turn of one agent (10_state R37). -/
def runEvent (e : Event) (s : State) : Host.Outcome State Fault Refusal :=
  match e with
  | .cycle sig => portCycle sig s
  | .busRead addr size => busAccess Config.seedBase addr size Signals.read s
  | .busWrite addr bytes =>
    busAccess Config.seedBase addr bytes.length
      (fun idx => Signals.write idx (busWord Config.hostBusLane bytes)) s
  | .engine => .next (engineStep s)

/-- A CMD write of a command word as an event. -/
def cmdEvent (v : Word) : Event := .cycle (Signals.write PortReg.cmd.index v)

end Sys2Proof.Machine
end

