-- ==== Sys2Proof/Machine/Notation.lean ====
section
/-! DEFINITION. The host notation and its pseudo-instructions as events (30_encoding R87, R88). `poll` is one read
of STATUS repeated by the host's own control flow, so only its body is an event. -/

namespace Sys2Proof.Machine

/-- `rd NAME`. -/
def rd (r : PortReg) : Event := .cycle (Signals.read r.index)

/-- `wr NAME, imm32`. -/
def wr (r : PortReg) (v : Word) : Event := .cycle (Signals.write r.index v)

/-- `rst = 1` for one edge (95_test_vectors program P1). -/
def rstEdge : Event := .cycle Signals.reset

/-- `nop`, `key n`, `enc`, `dec`, `wipe`, `gsub`: the CMD write of the command's word. -/
def command (i : Instr) : Event := wr .cmd (encode i)

/-- `setkey a, b, c, d`. -/
def setkey (q : Quad) : List Event := [wr (.key 0) q.w0, wr (.key 1) q.w1, wr (.key 2) q.w2, wr (.key 3) q.w3]

/-- `setblk a, b, c, d`. -/
def setblk (q : Quad) : List Event := [wr (.din 0) q.w0, wr (.din 1) q.w1, wr (.din 2) q.w2, wr (.din 3) q.w3]

/-- `getblk`. -/
def getblk : List Event := [rd (.dout 0), rd (.dout 1), rd (.dout 2), rd (.dout 3)]

/-- The body of `poll`; the host repeats it while bit 0 of the value read is 1. -/
def pollRead : Event := rd .status

/-- `poll` goes on: BUSY in the value last read is 1. -/
def pollAgain (s : State) : Bool := s.rdata.getLsbD 0

end Sys2Proof.Machine
end

