-- ==== Sys2Proof/Machine/Step.lean ====
section
/-! DEFINITION. One step of the machine: the next agent's turn (10_state R37). -/

namespace Sys2Proof.Machine

/-- The oldest listed turn is taken. When none is left the host has performed its last transaction: a command in
flight then completes, and an idle core keeps its state (10_state R38, 60_exceptions R232, 70_reset R261; log 2). -/
def step (s : State) : Host.Outcome State Fault Refusal :=
  match s.inputs with
  | [] => .next (engineStep s)
  | e :: rest => runEvent e (s.setInputs rest)

/-- The state whose very next turn is the CMD write of the word with these bits: the core fetches nothing, and a
command runs when the host writes it to CMD (20_memory R65; log 12). -/
def State.withFetchWord (s : State) (nbits w : Nat) : State :=
  s.setInputs (cmdEvent (tableWord nbits w) :: s.inputs)

end Sys2Proof.Machine
end

