-- ==== Sys2Proof/Safety.lean ====
section
/-! DEFINITION. The invariant of the machine, which host traces are admitted, and when a run has ended. -/

namespace Sys2Proof.Machine

/-- The tie between the STATUS fields, INFLIGHT and RK that every step keeps. -/
structure StateInv (s : State) : Prop where
  /-- ERR takes only the values 0 to 3 (60_exceptions R220). -/
  errCode : s.err.toNat ≤ 3
  /-- A command in flight has not ended: DONE = 0 and ERR = 0 (44_commands R180, R181). -/
  inFlight : s.inflight ≠ .none → s.done = false ∧ s.err = 0
  /-- An error is always the report of an ended command (60_exceptions R221). -/
  errDone : s.err ≠ 0 → s.done = true
  /-- OVR is set only while a command is in flight and survives its completion (10_state R26). -/
  ovrSource : s.ovr = true → s.inflight ≠ .none ∨ s.done = true
  /-- No schedule is present while KEY or WIPE is in flight (10_state R25). -/
  keyvOff : s.inflight = .key ∨ s.inflight = .wipe → s.keyv = false
  /-- A schedule is present while ENC or DEC is in flight (44_commands R185, R187). -/
  keyvOn : s.inflight = .enc ∨ s.inflight = .dec → s.keyv = true
  /-- KEYV = 1: RK holds a schedule derived from some 16-byte key (10_state R25). -/
  schedule : s.keyv = true → ∃ k : Quad, s.rk = derive (quadBytes k)

/-- The slot that this turn writes and the value it writes there (20_memory R51, 30_encoding R86): a cycle with wr_en
alone, or a bus write of exactly one slot of the core's window. -/
def Event.slotWritten : Event → Option (BitVec 6 × Word)
  | .cycle sig =>
    if sig.rst = false ∧ sig.rdEn = false ∧ sig.wrEn = true then some (sig.addr, sig.wdata) else none
  | .busRead _ _ => none
  | .busWrite addr bytes =>
    match busTarget Config.seedBase addr bytes.length with
    | .slot idx => some (idx, busWord Config.hostBusLane bytes)
    | .elsewhere => none
    | .misfit => none
  | .engine => none

/-- This turn is the host's write of `v` to the named slot (20_memory R53, R55). -/
def Event.Writes (e : Event) (r : PortReg) (v : Word) : Prop :=
  ∃ idx, e.slotWritten = some (idx, v) ∧ slotAt idx = some r

/-- This turn is a reset cycle (70_reset R250). -/
def Event.resets : Event → Bool
  | .cycle sig => sig.rst && !(sig.rdEn && sig.wrEn)
  | .busRead _ _ => false
  | .busWrite _ _ => false
  | .engine => false

/-- The host keeps its duties in this turn (70_reset R264): not both enables in one cycle, no narrow or misaligned
access to the core's window. -/
def Event.admitted : Event → Bool
  | .cycle sig => !(sig.rdEn && sig.wrEn)
  | .busRead addr size => decide (busTarget Config.seedBase addr size ≠ .misfit)
  | .busWrite addr bytes => decide (busTarget Config.seedBase addr bytes.length ≠ .misfit)
  | .engine => true

/-- Every turn still to come keeps the host's duties. -/
def admittedTrace (s : State) : Bool := s.inputs.all Event.admitted

/-- A run has ended: the host has performed its last transaction and INFLIGHT = NONE (10_state R38). -/
def State.final (s : State) : Prop := s.inputs = [] ∧ s.inflight = .none

end Sys2Proof.Machine
end

