-- ==== Sys2Proof/Certificates/Slice0/Obligations.lean ====
section
/-! DEFINITION. The statements for the provers, each from the spec's numbered rules. A docstring names the rule a
statement formalises, or the log entry where a clause is the model's own choice. -/

open Sys2Proof Sys2Proof.Machine

namespace Sys2Proof.Claims

/-! ### Words the statements use -/

/-- `t` is the reset state, but for the turns still to come. -/
def IsReset (t : State) : Prop := t = { State.reset with inputs := t.inputs }

/-- The state in which a transaction of this turn acts: the turn is taken from the list, and `rdata` is 0 (no
read in this cycle; log 3). -/
def taken (s : State) (rest : List Event) : State := { s with inputs := rest, rdata := 0 }

/-- The turn taken from `s` to `t` is a reset cycle, and `t` is the reset state. -/
def ResetTurn (s t : State) : Prop := (∃ e, s.inputs = e :: t.inputs ∧ e.resets = true) ∧ IsReset t

/-- The turn taken from `s` to `t` is the host's write of `v` to the named slot. -/
def HostWrites (s t : State) (r : PortReg) (v : Word) : Prop := ∃ e, s.inputs = e :: t.inputs ∧ e.Writes r v

/-- The step from `s` to `t` is the CMD write of some word, which ends in `t`, whatever `rdata` shows. -/
def CommandTurn (s t : State) : Prop :=
  ∃ v, HostWrites s t .cmd v ∧ writeCmd v { s with inputs := t.inputs, rdata := t.rdata } = .next t

/-- The step from `s` to `t` is the engine's: its turn, or no turn is left (log 2). -/
def EngineTurn (s t : State) : Prop :=
  (s.inputs = .engine :: t.inputs ∨ s.inputs = [] ∧ t.inputs = []) ∧ t = engineStep { s with inputs := t.inputs }

/-- The masks m[0..3], the index modulo 4, as R103 writes them. -/
def maskValue (k : Nat) : Byte :=
  if k % 4 = 0 then 0xFC else if k % 4 = 1 then 0xF3 else if k % 4 = 2 then 0xCF else 0x3F

/-- Multiplication by x in GF(2^8) modulo 0x163 (R102). -/
def xtime (a : Byte) : Byte := if a.getLsbD 7 then (a <<< 1) ^^^ 0x63 else a <<< 1

/-- The product in that field: the sum of `a * x^i` over the set bits `i` of `b`, from bit `8 - n` up. -/
def gfMulFrom : Nat → Byte → Byte → Byte
  | 0, _, _ => 0
  | n + 1, a, b => (if b.getLsbD 0 then a else 0) ^^^ gfMulFrom n (xtime a) (b >>> 1)

/-- The product in GF(2^8) modulo 0x163. -/
def gfMul (a b : Byte) : Byte := gfMulFrom 8 a b

/-- `a^e` for an exponent of at most `n` bits, by repeated squaring. -/
def gfPowBits : Nat → Byte → Nat → Byte
  | 0, _, _ => 1
  | n + 1, a, e => gfMul (if e % 2 = 1 then a else 1) (gfPowBits n (gfMul a a) (e / 2))

/-- `a^e` for `e < 256`. -/
def gfPow (a : Byte) (e : Nat) : Byte := gfPowBits 8 a e

/-- The linear map with these images of 0x01, 0x02, 0x04, …: the exclusive or of the images of the set bits. -/
def linearMap : List Byte → Byte → Byte
  | [], _ => 0
  | y :: ys, a => (if a.getLsbD 0 then y else 0) ^^^ linearMap ys (a >>> 1)

/-- The offset of round `n` of ENC, `2(n - 1)` (R164's table). -/
def encryptOffset (n : Nat) : Fin 31 := ⟨2 * (n - 1) % 31, Nat.mod_lt _ (by decide)⟩

/-- The offset of round `n` of DEC, `30 - 2(n - 1)` (R164's table). -/
def decryptOffset (n : Nat) : Fin 31 := ⟨(30 - 2 * (n - 1)) % 31, Nat.mod_lt _ (by decide)⟩

/-- Round `n` of a transform: an odd round updates the left half from the right, an even one the right half from the
left (R164). -/
def tableRound (rk : RoundKeys) (offset : Nat → Fin 31) (h : Halves) (n : Nat) : Halves :=
  if n % 2 = 1 then { h with left := feistelRound rk h.left h.right (offset n) }
  else { h with right := feistelRound rk h.right h.left (offset n) }

/-- Equal outside RK; and RK is equal too, or no transform can read it. -/
def SameOutsideRk (s t : State) : Prop :=
  t = { s with rk := t.rk } ∧
    (t.rk = s.rk ∨ (s.keyv = false ∧ s.inflight ≠ .enc ∧ s.inflight ≠ .dec))

/-- The same kind of outcome, with related states or the same reason. -/
def OutcomesMatch : Host.Outcome State Fault Refusal → Host.Outcome State Fault Refusal → Prop
  | .next s, .next t => SameOutsideRk s t
  | .fault a, .fault b => a = b
  | .refused a, .refused b => a = b
  | _, _ => False

end Sys2Proof.Claims

open Sys2Proof.Claims

/-! ### Reset and the port -/

/-- R251: a cycle with rst = 1 and not both enables takes the reset state from any state; every element has the value
R251 writes; the command in flight is aborted; ID0..ID2 read as before; the engine has no step; STATUS reads 0 (R252).
The turns still to come stay (log 1), `rdata` is 0 (R253a, log 3), and the engine's turn in the idle core changes
nothing (log 4): these are the model's. -/
def Obligations.ResetTakesTheResetState : Prop :=
  (∀ (s : State) (sig : Signals) (rest : List Event),
    s.inputs = .cycle sig :: rest → sig.rst = true → ¬(sig.rdEn = true ∧ sig.wrEn = true) →
      step s = .next { State.reset with inputs := rest }) ∧
  (∀ t : State, IsReset t →
    t.inflight = .none ∧ t.w = ⟨0, 0, 0, 0⟩ ∧ t.done = false ∧ t.keyv = false ∧ t.ovr = false ∧ t.err = 0 ∧
    t.key = ⟨0, 0, 0, 0⟩ ∧ t.din = ⟨0, 0, 0, 0⟩ ∧ t.dout = ⟨0, 0, 0, 0⟩ ∧
    (∀ (i : Nat) (h : i < 32), t.rk[i] = 0) ∧
    (∀ (s : State) (idx : BitVec 6), idx.toNat < 3 → portRead idx t = portRead idx s) ∧
    engineStep t = t ∧ portRead 3 t = 0)

/-- R21: the identity slots read as the constants in every state, and a write to one changes nothing. -/
def Obligations.IdentityRegistersAreConstants : Prop :=
  ∀ s : State,
    portRead 0 s = 0x4B495341 ∧ portRead 1 s = 0x2D534545 ∧ portRead 2 s = 0x44000000 ∧
    (∀ (idx : BitVec 6) (v : Word), idx.toNat < 3 → portWrite idx v s = .next s) ∧
    (∀ idx : BitVec 6, idx.toNat < 3 → portRead idx (resetCore s) = portRead idx s)

/-- R53: the named slots stand at the listed indices, and exactly the indices 5 to 7 and 20 to 63 are reserved. -/
def Obligations.SlotMapIsTheSpecsTable : Prop :=
  (∀ (idx : BitVec 6) (j : Fin 3), slotAt idx = some (.id j) ↔ idx.toNat = j.val) ∧
  (∀ idx : BitVec 6, slotAt idx = some .status ↔ idx.toNat = 3) ∧
  (∀ idx : BitVec 6, slotAt idx = some .cmd ↔ idx.toNat = 4) ∧
  (∀ (idx : BitVec 6) (j : Fin 4), slotAt idx = some (.key j) ↔ idx.toNat = 8 + j.val) ∧
  (∀ (idx : BitVec 6) (j : Fin 4), slotAt idx = some (.din j) ↔ idx.toNat = 12 + j.val) ∧
  (∀ (idx : BitVec 6) (j : Fin 4), slotAt idx = some (.dout j) ↔ idx.toNat = 16 + j.val) ∧
  (∀ idx : BitVec 6, slotAt idx = none ↔ (5 ≤ idx.toNat ∧ idx.toNat ≤ 7) ∨ 20 ≤ idx.toNat) ∧
  (∀ r : PortReg, slotAt r.index = some r)

/-- R22, R23: the layout of the STATUS word, and BUSY as INFLIGHT not NONE. -/
def Obligations.StatusWordLayout : Prop :=
  ∀ s : State,
    (statusWord s).getLsbD 0 = decide (s.inflight ≠ .none) ∧
    (statusWord s).getLsbD 1 = s.done ∧
    (statusWord s).getLsbD 2 = s.keyv ∧
    (statusWord s).getLsbD 3 = s.ovr ∧
    (statusWord s).extractLsb' 4 4 = s.err ∧
    (∀ i : Nat, 8 ≤ i → (statusWord s).getLsbD i = false)

/-- R54: a read cycle changes nothing but `rdata`, which takes the slot's value; the value of every slot. -/
def Obligations.PortReadReturnsTheSlotValue : Prop :=
  ∀ (s : State) (idx : BitVec 6) (v : Word),
    portCycle ⟨false, true, false, idx, v⟩ s = .next { s with rdata := portRead idx s } ∧
    (idx.toNat = 0 → portRead idx s = 0x4B495341) ∧
    (idx.toNat = 1 → portRead idx s = 0x2D534545) ∧
    (idx.toNat = 2 → portRead idx s = 0x44000000) ∧
    (idx.toNat = 3 → portRead idx s =
      s.err.setWidth 32 <<< 4 ||| (BitVec.ofBool s.ovr).setWidth 32 <<< 3 |||
        (BitVec.ofBool s.keyv).setWidth 32 <<< 2 ||| (BitVec.ofBool s.done).setWidth 32 <<< 1 |||
        (BitVec.ofBool (decide (s.inflight ≠ .none))).setWidth 32) ∧
    (idx.toNat = 4 → portRead idx s = 0) ∧
    (∀ j : Fin 4, idx.toNat = 8 + j.val → portRead idx s = 0) ∧
    (∀ j : Fin 4, idx.toNat = 12 + j.val → portRead idx s = wordAt s.din j) ∧
    (∀ j : Fin 4, idx.toNat = 16 + j.val → portRead idx s = wordAt s.dout j) ∧
    ((5 ≤ idx.toNat ∧ idx.toNat ≤ 7) ∨ 20 ≤ idx.toNat → portRead idx s = 0)

/-- R55: the effect of a write of every slot, in every state (BUSY or not). -/
def Obligations.PortWriteActsOnItsSlotOnly : Prop :=
  ∀ (s : State) (idx : BitVec 6) (v : Word),
    (∀ j : Fin 4, idx.toNat = 8 + j.val → portWrite idx v s = .next { s with key := setWord s.key j v }) ∧
    (∀ j : Fin 4, idx.toNat = 12 + j.val → portWrite idx v s = .next { s with din := setWord s.din j v }) ∧
    (idx.toNat = 4 → portWrite idx v s = writeCmd v s) ∧
    (idx.toNat < 4 ∨ (5 ≤ idx.toNat ∧ idx.toNat ≤ 7) ∨ 16 ≤ idx.toNat → portWrite idx v s = .next s) ∧
    (∀ (q : Quad) (j k : Fin 4), wordAt (setWord q j v) k = if k = j then v else wordAt q k)

/-- R61: no read and no write outside CMD does more than store; such writes are idempotent; a CMD write is not. -/
def Obligations.OnlyCmdWritesHaveSideEffects : Prop :=
  (∀ (s : State) (idx : BitVec 6) (v : Word), idx ≠ 4 →
    ∃ t, portWrite idx v s = .next t ∧ t = { s with key := t.key, din := t.din } ∧
      portWrite idx v t = .next t) ∧
  (∀ (s : State) (idx : BitVec 6),
    ∃ t, portCycle (Signals.read idx) s = .next t ∧ t = { s with rdata := t.rdata }) ∧
  (∃ (s t u : State) (v : Word), writeCmd v s = .next t ∧ writeCmd v t = .next u ∧ u ≠ t)

/-- R50, R58, R59: bus accesses go through the window at SEED_BASE; whatever base aligned to 4 bytes the platform
chooses, an access of four bytes at `base + 4 * idx` is the port transaction of slot `idx`, and an access that touches
the window with another size or alignment is refused; the bytes of a bus write are the bytes a bus read of the same
word shows. The model's choices: the refusal of accesses wider than 32 bits and of every access at a base not aligned
to 4, and the idle cycle of an access elsewhere (log 7); byte lanes as any assignment (log 8). -/
def Obligations.BusAccessIsOneAlignedSlot : Prop :=
  (∀ (addr size : Nat) (s : State),
    runEvent (.busRead addr size) s = busAccess Config.seedBase addr size Signals.read s) ∧
  (∀ (addr : Nat) (bytes : List Byte) (s : State),
    runEvent (.busWrite addr bytes) s = busAccess Config.seedBase addr bytes.length
      (fun idx => Signals.write idx (busWord Config.hostBusLane bytes)) s) ∧
  (∀ (base : Nat) (idx : BitVec 6) (sig : BitVec 6 → Signals) (s : State), base % 4 = 0 →
    busAccess base (base + 4 * idx.toNat) 4 sig s = portCycle (sig idx) s) ∧
  (∀ (base addr size : Nat) (sig : BitVec 6 → Signals) (s : State), addr < base + 256 → base < addr + size →
    size ≠ 4 ∨ addr % 4 ≠ 0 ∨ base % 4 ≠ 0 → busAccess base addr size sig s = .refused .narrowOrMisaligned) ∧
  (∀ (base addr size : Nat) (sig : BitVec 6 → Signals) (s : State), addr + size ≤ base ∨ base + 256 ≤ addr →
    busAccess base addr size sig s = .next { s with rdata := 0 }) ∧
  (∀ (lane : Equiv.Perm (Fin 4)) (bytes : List Byte), bytes.length = 4 →
    busBytes lane (busWord lane bytes) = bytes)

/-! ### Decoding -/

/-- R84: the decode function clause by clause, and the legal words. -/
def Obligations.DecodeFollowsTheFormat : Prop :=
  ∀ w : Word,
    (w.extractLsb' 16 16 ≠ 0 ∨ w.extractLsb' 4 4 ≠ 0 → ∃ why, decode w = .illegal why) ∧
    (w.extractLsb' 16 16 = 0 → w.extractLsb' 4 4 = 0 →
      (w.extractLsb' 0 4 = 1 → decode w = .instr (.key (w.extractLsb' 8 8).toNat)) ∧
      (w.extractLsb' 0 4 ≠ 1 → w.extractLsb' 8 8 ≠ 0 → ∃ why, decode w = .illegal why) ∧
      (w.extractLsb' 8 8 = 0 →
        (w.extractLsb' 0 4 = 0 → decode w = .instr .nop) ∧
        (w.extractLsb' 0 4 = 2 → decode w = .instr .enc) ∧
        (w.extractLsb' 0 4 = 3 → decode w = .instr .dec) ∧
        (w.extractLsb' 0 4 = 4 → decode w = .instr .wipe) ∧
        (w.extractLsb' 0 4 = 5 → decode w = .instr .gsub) ∧
        (6 ≤ (w.extractLsb' 0 4).toNat → ∃ why, decode w = .illegal why))) ∧
    ((∃ i, decode w = .instr i) ↔
      w = 0 ∨ w = 2 ∨ w = 3 ∨ w = 4 ∨ w = 5 ∨ ∃ len : BitVec 8, w = (len.setWidth 32 <<< 8) ||| 1)

/-- Words the spec writes out (95_test_vectors 2.6) and what they stand for. -/
def Obligations.SpecWordsDecode : Prop :=
  decode 0x00000000 = .instr .nop ∧ decode 0x00001001 = .instr (.key 16) ∧
  decode 0x0000FF01 = .instr (.key 255) ∧ decode 0x00000002 = .instr .enc ∧ decode 0x00000003 = .instr .dec ∧
  decode 0x00000004 = .instr .wipe ∧ decode 0x00000005 = .instr .gsub ∧
  (∃ why, decode 0x00000006 = .illegal why) ∧ (∃ why, decode 0x00000100 = .illegal why)

/-- R80, R84: every command with an encoding is decoded from its word. -/
def Obligations.DecodeOfEncodeIsTheCommand : Prop :=
  ∀ i : Instr, i.wf = true → decode (encode i) = .instr i

/-- R84: a word that decodes to a command is that command's word, so each legal word has one meaning. -/
def Obligations.EncodeOfDecodeIsTheWord : Prop :=
  ∀ (w : Word) (i : Instr), decode w = .instr i → i.wf = true ∧ encode i = w

/-! ### Commands -/

/-- R37, R52, R62: a step takes the oldest turn, whatever it is, and the turn acts on the state with the turns after it;
a port cycle acts through the port, the engine's turn is its completion (the bus accesses: BusAccessIsOneAlignedSlot).
With no turn left the step is the engine's (log 2). R180, R86: the turn of a CMD write runs the command its word
decodes to, and an ILLEGAL word takes R193's rule. `rdata` is 0 in a write cycle (R51, log 3). -/
def Obligations.CmdWriteRunsTheDecodedCommand : Prop :=
  (∀ (s : State) (e : Event) (rest : List Event), s.inputs = e :: rest →
    step s = runEvent e { s with inputs := rest }) ∧
  (∀ (sig : Signals) (s : State), runEvent (.cycle sig) s = portCycle sig s) ∧
  (∀ s : State, runEvent .engine s = .next (engineStep s)) ∧
  (∀ s : State, s.inputs = [] → step s = .next (engineStep s)) ∧
  (∀ (s : State) (v : Word) (rest : List Event), s.inputs = .cycle ⟨false, false, true, 4, v⟩ :: rest →
    (∀ i : Instr, decode v = .instr i → step s = exec i (taken s rest)) ∧
    (∀ why : IllegalWord, decode v = .illegal why → step s = .next (acceptIllegal (taken s rest))))

/-- R182: NOP clears DONE, ERR and OVR and does nothing else; it has no completion; dropped while BUSY. That the
engine's turn changes nothing in the idle core after it is the model's reading of R181 (log 4). -/
def Obligations.NopClearsTheReport : Prop :=
  encode .nop = 0x00000000 ∧
  (∀ s : State, s.inflight = .none →
    exec .nop s = .next { s with done := false, err := 0, ovr := false } ∧
    engineStep { s with done := false, err := 0, ovr := false } = { s with done := false, err := 0, ovr := false }) ∧
  (∀ s : State, s.inflight ≠ .none → exec .nop s = .next { s with ovr := true }) ∧
  (∀ s : State, statusWord s = 0x16 → ∃ t, exec .nop s = .next t ∧ statusWord t = 0x04)

/-- R183: KEY's acceptance. -/
def Obligations.KeyAcceptanceChecksTheLength : Prop :=
  (∀ len : Nat, len < 256 → encode (.key len) = BitVec.ofNat 32 (len * 256 + 1)) ∧
  (∀ s : State, s.inflight = .none →
    exec (.key 16) s = .next { s with
      done := false, err := 0, ovr := false, w := s.key, key := ⟨0, 0, 0, 0⟩, keyv := false, inflight := .key }) ∧
  (∀ (s : State) (len : Nat), s.inflight = .none → len < 256 → len ≠ 16 →
    exec (.key len) s = .next { s with done := true, err := 1, ovr := false }) ∧
  (∀ s : State, s.inflight = .none → s.keyv = false →
    (∃ t, exec (.key 15) s = .next t ∧ statusWord t = 0x12) ∧
    (∃ t, exec (.key 16) s = .next t ∧ statusWord t = 0x01))

/-- R184: KEY's completion. -/
def Obligations.KeyCompletionDerivesTheSchedule : Prop :=
  (∀ s : State, s.inflight = .key →
    engineStep s = { s with
      rk := derive (unbe32 s.w.w0 ++ unbe32 s.w.w1 ++ unbe32 s.w.w2 ++ unbe32 s.w.w3),
      keyv := true, inflight := .none, done := true }) ∧
  (∀ s : State, s.inflight = .none → s.key = ⟨0, 0, 0, 0⟩ →
    ∃ t, exec (.key 16) s = .next t ∧ (engineStep t).rk[0] = 0x7C8F8C7E ∧ (engineStep t).rk[1] = 0xC737A22C ∧
      statusWord (engineStep t) = 0x06)

/-- R185: ENC's acceptance. -/
def Obligations.EncAcceptanceNeedsAKey : Prop :=
  encode .enc = 0x00000002 ∧
  (∀ s : State, s.inflight = .none → s.keyv = true →
    exec .enc s = .next { s with done := false, err := 0, ovr := false, w := s.din, inflight := .enc }) ∧
  (∀ s : State, s.inflight = .none → s.keyv = false →
    exec .enc s = .next { s with done := true, err := 2, ovr := false } ∧
    ∃ t, exec .enc s = .next t ∧ statusWord t = 0x22)

/-- R186: ENC's completion. -/
def Obligations.EncCompletionEncryptsW : Prop :=
  (∀ s : State, s.inflight = .enc →
    engineStep s = { s with dout := encrypt s.rk s.w, inflight := .none, done := true }) ∧
  (∀ s : State, s.inflight = .none → s.keyv = true → s.rk = derive (List.replicate 16 0) →
    s.din = ⟨0x00010203, 0x04050607, 0x08090A0B, 0x0C0D0E0F⟩ →
    ∃ t, exec .enc s = .next t ∧
      (engineStep t).dout = ⟨0x5EBAC6E0, 0x054E1668, 0x19AFF1CC, 0x6D346CDB⟩)

/-- R187: DEC's acceptance. -/
def Obligations.DecAcceptanceNeedsAKey : Prop :=
  encode .dec = 0x00000003 ∧
  (∀ s : State, s.inflight = .none → s.keyv = true →
    exec .dec s = .next { s with done := false, err := 0, ovr := false, w := s.din, inflight := .dec }) ∧
  (∀ s : State, s.inflight = .none → s.keyv = false →
    exec .dec s = .next { s with done := true, err := 2, ovr := false } ∧
    ∃ t, exec .dec s = .next t ∧ statusWord t = 0x22)

/-- R188: DEC's completion. -/
def Obligations.DecCompletionDecryptsW : Prop :=
  (∀ s : State, s.inflight = .dec →
    engineStep s = { s with dout := decrypt s.rk s.w, inflight := .none, done := true }) ∧
  (∀ s : State, s.inflight = .none → s.keyv = true → s.rk = derive (List.replicate 16 0) →
    s.din = ⟨0x5EBAC6E0, 0x054E1668, 0x19AFF1CC, 0x6D346CDB⟩ →
    ∃ t, exec .dec s = .next t ∧
      (engineStep t).dout = ⟨0x00010203, 0x04050607, 0x08090A0B, 0x0C0D0E0F⟩)

/-- R189: WIPE's acceptance, with or without a key. -/
def Obligations.WipeAcceptanceClearsKeyv : Prop :=
  encode .wipe = 0x00000004 ∧
  (∀ s : State, s.inflight = .none →
    exec .wipe s = .next { s with done := false, err := 0, ovr := false, keyv := false, inflight := .wipe } ∧
    ∃ t, exec .wipe s = .next t ∧ statusWord t = 0x01)

/-- R190: WIPE's completion zeroes all of RK and nothing else; ENC then fails with NO_KEY. -/
def Obligations.WipeCompletionZeroesTheSchedule : Prop :=
  (∀ s : State, s.inflight = .wipe →
    engineStep s = { s with rk := Vector.replicate 32 0, inflight := .none, done := true } ∧
    ∀ (i : Nat) (h : i < 32), (engineStep s).rk[i] = 0) ∧
  (∀ s : State, s.inflight = .none →
    ∃ t u, exec .wipe s = .next t ∧ statusWord (engineStep t) = 0x02 ∧
      exec .enc (engineStep t) = .next u ∧ statusWord u = 0x22)

/-- R191: GSUB's acceptance loads W[0] only and needs no key. -/
def Obligations.GsubAcceptanceSamplesDin0 : Prop :=
  encode .gsub = 0x00000005 ∧
  (∀ s : State, s.inflight = .none →
    exec .gsub s = .next { s with
      done := false, err := 0, ovr := false, w := ⟨s.din.w0, s.w.w1, s.w.w2, s.w.w3⟩, inflight := .gsub } ∧
    ∃ t, exec .gsub s = .next t ∧ statusWord t = if s.keyv then 0x05 else 0x01)

/-- R192: GSUB's completion. -/
def Obligations.GsubCompletionWritesG : Prop :=
  (∀ s : State, s.inflight = .gsub →
    engineStep s = { s with dout := ⟨G s.w.w0, 0, 0, 0⟩, inflight := .none, done := true }) ∧
  G 0 = 0xB829B829 ∧
  (∀ s : State, s.inflight = .none → s.din.w0 = 0x01234567 →
    ∃ t, exec .gsub s = .next t ∧ (engineStep t).dout = ⟨0x27E4246B, 0, 0, 0⟩)

/-- R193: an accepted ILLEGAL word ends at once with code 3 and writes nothing else. -/
def Obligations.IllegalWordEndsWithItsCode : Prop :=
  (∀ (s : State) (v : Word), s.inflight = .none → (∃ why, decode v = .illegal why) →
    writeCmd v s = .next { s with done := true, err := 3, ovr := false } ∧
    ∃ t, writeCmd v s = .next t ∧ statusWord t = if s.keyv then 0x36 else 0x32) ∧
  (∃ why, decode 0x00001002 = .illegal why) ∧ decode 0x00000101 = .instr (.key 1) ∧
  (∀ s : State, s.inflight = .none → ∃ t, writeCmd 0x00000101 s = .next t ∧ t.err = 1) ∧
  (∃ why, decode 0x00000006 = .illegal why)

/-- R194: the table of what each command step writes. First clause: a dropped write. Second: the accepting step of
every word. Third: the completion. -/
def Obligations.CommandStepsWriteOnlyTheirColumn : Prop :=
  (∀ (s : State) (v : Word), s.inflight ≠ .none → writeCmd v s = .next { s with ovr := true }) ∧
  (∀ (s t : State) (v : Word), s.inflight = .none → writeCmd v s = .next t →
    t.din = s.din ∧ t.dout = s.dout ∧ t.rk = s.rk ∧ t.rdata = s.rdata ∧ t.inputs = s.inputs ∧ t.ovr = false ∧
    (t.done = true ∧ t.err ≠ 0 ∨ t.done = false ∧ t.err = 0) ∧
    (t.err ≠ 0 → t.inflight = .none ∧ t.keyv = s.keyv ∧ t.w = s.w ∧ t.key = s.key) ∧
    (t.err = 0 →
      (decode v = .instr .nop ∧ t.inflight = .none ∧ t.keyv = s.keyv ∧ t.w = s.w ∧ t.key = s.key) ∨
      (decode v = .instr (.key 16) ∧ t.inflight = .key ∧ t.keyv = false ∧ t.w = s.key ∧ t.key = ⟨0, 0, 0, 0⟩) ∨
      (decode v = .instr .enc ∧ t.inflight = .enc ∧ t.keyv = s.keyv ∧ t.w = s.din ∧ t.key = s.key) ∨
      (decode v = .instr .dec ∧ t.inflight = .dec ∧ t.keyv = s.keyv ∧ t.w = s.din ∧ t.key = s.key) ∨
      (decode v = .instr .wipe ∧ t.inflight = .wipe ∧ t.keyv = false ∧ t.w = s.w ∧ t.key = s.key) ∨
      (decode v = .instr .gsub ∧ t.inflight = .gsub ∧ t.keyv = s.keyv ∧
        t.w = ⟨s.din.w0, s.w.w1, s.w.w2, s.w.w3⟩ ∧ t.key = s.key))) ∧
  (∀ s : State, s.inflight ≠ .none →
    (engineStep s).inflight = .none ∧ (engineStep s).done = true ∧ (engineStep s).err = s.err ∧
    (engineStep s).ovr = s.ovr ∧ (engineStep s).w = s.w ∧ (engineStep s).key = s.key ∧
    (engineStep s).din = s.din ∧ (engineStep s).rdata = s.rdata ∧ (engineStep s).inputs = s.inputs ∧
    (engineStep s).keyv = (if s.inflight = .key then true else s.keyv) ∧
    (engineStep s).rk = (if s.inflight = .key then derive (quadBytes s.w)
      else if s.inflight = .wipe then Vector.replicate 32 0 else s.rk) ∧
    (engineStep s).dout = (if s.inflight = .enc then encrypt s.rk s.w
      else if s.inflight = .dec then decrypt s.rk s.w
      else if s.inflight = .gsub then ⟨G s.w.w0, 0, 0, 0⟩ else s.dout)) ∧
  (∀ (s t : State) (j : Fin 3), readReg t (.id j) = readReg s (.id j))

/-- R180 to R192 together: each command that needs the engine is accepted from an idle core and delivers its result
at completion, and nothing else of the state differs from before. -/
def Obligations.EngineCommandsDeliverTheirResult : Prop :=
  ∀ s : State, s.inflight = .none →
    (∃ t, exec (.key 16) s = .next t ∧ engineStep t = { s with
      done := true, err := 0, ovr := false, w := s.key, key := ⟨0, 0, 0, 0⟩, keyv := true,
      rk := derive (quadBytes s.key) }) ∧
    (s.keyv = true → ∃ t, exec .enc s = .next t ∧ engineStep t = { s with
      done := true, err := 0, ovr := false, w := s.din, dout := encrypt s.rk s.din }) ∧
    (s.keyv = true → ∃ t, exec .dec s = .next t ∧ engineStep t = { s with
      done := true, err := 0, ovr := false, w := s.din, dout := decrypt s.rk s.din }) ∧
    (∃ t, exec .wipe s = .next t ∧ engineStep t = { s with
      done := true, err := 0, ovr := false, keyv := false, rk := Vector.replicate 32 0 }) ∧
    (∃ t, exec .gsub s = .next t ∧ engineStep t = { s with
      done := true, err := 0, ovr := false, w := ⟨s.din.w0, s.w.w1, s.w.w2, s.w.w3⟩,
      dout := ⟨G s.din.w0, 0, 0, 0⟩ })

/-! ### Errors and the report -/

/-- R222: a command that raises an error writes only the report fields, never sets BUSY, and no error arises after
acceptance. -/
def Obligations.ErrorsAreAtomic : Prop :=
  (∀ (s t : State) (v : Word), s.inflight = .none → writeCmd v s = .next t → t.err ≠ 0 →
    t = { s with done := true, err := t.err, ovr := false } ∧ t.busy = false) ∧
  (∀ s : State, (engineStep s).err = s.err)

/-- R223: the four checks in their order, the two words it names, reset over everything, and both orders of a CMD
write and the completion. -/
def Obligations.CommandChecksInTheirOrder : Prop :=
  (∀ (s : State) (v : Word),
    (s.inflight ≠ .none → writeCmd v s = .next { s with ovr := true }) ∧
    (s.inflight = .none → ∃ t, writeCmd v s = .next t ∧
      ((∃ why, decode v = .illegal why) → t.err = 3) ∧
      (∀ len, decode v = .instr (.key len) → len ≠ 16 → t.err = 1) ∧
      (decode v = .instr .enc ∨ decode v = .instr .dec → s.keyv = false → t.err = 2) ∧
      (decode v = .instr .nop ∨ decode v = .instr (.key 16) ∨ decode v = .instr .wipe ∨
        decode v = .instr .gsub ∨ (decode v = .instr .enc ∨ decode v = .instr .dec) ∧ s.keyv = true →
        t.err = 0))) ∧
  (∃ why, decode 0x00000F11 = .illegal why) ∧ (∃ why, decode 0x00001002 = .illegal why) ∧
  (∀ (s : State) (v : Word), portCycle ⟨true, false, true, 4, v⟩ s = .next { State.reset with inputs := s.inputs }) ∧
  (∀ (s : State) (v : Word) (rest : List Event), s.inflight ≠ .none →
    (s.inputs = .engine :: cmdEvent v :: rest →
      Host.Core.run core 2 s = writeCmd v (taken (engineStep s) rest)) ∧
    (s.inputs = cmdEvent v :: .engine :: rest →
      Host.Core.run core 2 s = .next (engineStep { taken s rest with ovr := true })))

/-- R26: who sets OVR, that completion keeps it, and that only an accepted CMD write or a reset clears it. -/
def Obligations.OverrunIsStickyUntilTheNextCommand : Prop :=
  (∀ (s : State) (v : Word), s.inflight ≠ .none → writeCmd v s = .next { s with ovr := true }) ∧
  (∀ s : State, (engineStep s).ovr = s.ovr) ∧
  (∀ (s t : State) (v : Word), s.inflight = .none → writeCmd v s = .next t → t.ovr = false) ∧
  (∀ s t : State, step s = .next t → s.ovr = true → t.ovr = false →
    ResetTurn s t ∨ s.inflight = .none ∧ CommandTurn s t) ∧
  (∀ s t : State, step s = .next t → s.ovr = false → t.ovr = true →
    s.inflight ≠ .none ∧ CommandTurn s t ∧ t = { s with inputs := t.inputs, rdata := t.rdata, ovr := true })

/-- R224: in an idle core DONE, ERR and OVR hold until the next accepted command or a reset. -/
def Obligations.ReportHoldsUntilTheNextCommand : Prop :=
  ∀ s t : State, step s = .next t → s.inflight = .none →
    (t.done = s.done ∧ t.err = s.err ∧ t.ovr = s.ovr) ∨ ResetTurn s t ∨ CommandTurn s t

/-! ### Who writes what, in any step of the machine -/

/-- R32: RK changes only at the completion of KEY or WIPE and at reset. -/
def Obligations.RoundKeysChangeOnlyByKeyWipeReset : Prop :=
  ∀ s t : State, step s = .next t → t.rk ≠ s.rk →
    ResetTurn s t ∨ EngineTurn s t ∧ t.inflight = .none ∧
      (s.inflight = .key ∧ t.keyv = true ∧ t.rk = derive (quadBytes s.w) ∨
        s.inflight = .wipe ∧ t.rk = Vector.replicate 32 0)

/-- R25: KEYV is set only by a completed KEY and cleared only by the acceptance of KEY with LEN 16 or WIPE, and by
reset. -/
def Obligations.KeyvChangesOnlyByKeyWipeReset : Prop :=
  ∀ s t : State, step s = .next t →
    (s.keyv = false → t.keyv = true →
      EngineTurn s t ∧ s.inflight = .key ∧ t.inflight = .none ∧ t.rk = derive (quadBytes s.w)) ∧
    (s.keyv = true → t.keyv = false →
      ResetTurn s t ∨ s.inflight = .none ∧ ∃ v, HostWrites s t .cmd v ∧
        (decode v = .instr (.key 16) ∧ t.inflight = .key ∨ decode v = .instr .wipe ∧ t.inflight = .wipe))

/-- R29: a key register changes only by the host's write of that word with the value written, by the acceptance of KEY
with LEN 16, and by reset. -/
def Obligations.KeyRegistersChangeOnlyByHostKeyReset : Prop :=
  ∀ s t : State, step s = .next t → t.key ≠ s.key →
    ResetTurn s t ∨
    (∃ (j : Fin 4) (v : Word), HostWrites s t (.key j) v ∧
      t = { taken s t.inputs with key := setWord s.key j v }) ∨
    (s.inflight = .none ∧ (∃ v, HostWrites s t .cmd v ∧ decode v = .instr (.key 16)) ∧
      t.inflight = .key ∧ t.w = s.key ∧ t.key = ⟨0, 0, 0, 0⟩)

/-- R30, R31: DIN changes only by the host's write of that word with the value written and at reset, DOUT only at the
completion of ENC, DEC or GSUB and at reset. -/
def Obligations.BlockRegistersChangeOnlyByTheirWriters : Prop :=
  ∀ s t : State, step s = .next t →
    (t.din ≠ s.din →
      ResetTurn s t ∨ ∃ (j : Fin 4) (v : Word), HostWrites s t (.din j) v ∧
        t = { taken s t.inputs with din := setWord s.din j v }) ∧
    (t.dout ≠ s.dout →
      ResetTurn s t ∨ EngineTurn s t ∧ t.inflight = .none ∧ t.done = true ∧
        (s.inflight = .enc ∧ t.dout = encrypt s.rk s.w ∨ s.inflight = .dec ∧ t.dout = decrypt s.rk s.w ∨
          s.inflight = .gsub ∧ t.dout = ⟨G s.w.w0, 0, 0, 0⟩))

/-- R33, R63, R228: a command in flight stays in flight, with its operands, until its completion or a reset; the
core becomes busy only by a CMD write that is accepted. -/
def Obligations.InFlightUntilCompletionOrReset : Prop :=
  ∀ s t : State, step s = .next t →
    (s.inflight ≠ .none →
      (t.inflight = s.inflight ∧ t.w = s.w ∧ t.rk = s.rk ∧ t.keyv = s.keyv ∧ t.dout = s.dout) ∨
      ResetTurn s t ∨ EngineTurn s t) ∧
    (s.inflight = .none → t.inflight ≠ .none → CommandTurn s t)

/-- R181, R258: the engine's step is taken at its turn; it does not read KEY or DIN, so host writes to them while BUSY
change no result. That its turn in an idle core changes nothing is the model's reading of R181 (log 4). -/
def Obligations.EngineReadsOnlySampledOperands : Prop :=
  (∀ (s : State) (rest : List Event), s.inputs = .engine :: rest →
    step s = .next (engineStep { s with inputs := rest })) ∧
  (∀ s : State, s.inflight = .none → engineStep s = s) ∧
  (∀ (s : State) (a b : Quad), engineStep { s with key := a, din := b } = { engineStep s with key := a, din := b }) ∧
  (∀ (s t : State) (idx : BitVec 6) (v : Word), idx ≠ 4 → portWrite idx v s = .next t →
    portWrite idx v (engineStep s) = .next (engineStep t))

/-- R257: KEY consumes the key registers: a second KEY without new writes constructs the all-zero key. -/
def Obligations.SecondKeyUsesTheZeroKey : Prop :=
  (∀ s : State, s.inflight = .none →
    ∃ t u, exec (.key 16) s = .next t ∧ t.key = ⟨0, 0, 0, 0⟩ ∧ exec (.key 16) (engineStep t) = .next u ∧
      (engineStep u).rk = derive (List.replicate 16 0) ∧ (engineStep u).keyv = true) ∧
  (∀ (s : State) (idx : BitVec 6), 8 ≤ idx.toNat → idx.toNat < 12 → portRead idx s = 0)

/-! ### The machine as a whole -/

/-- R253, R264, R225: a step never faults; it is refused exactly when the host breaks a duty in this turn, with the
reason of that duty. The model's choices: both enables break the duty with rst = 1 too (log 6), and so does every bus
access that touches the window and is not one aligned slot, accesses wider than 32 bits and every access at a
SEED_BASE not aligned to 4 among them (log 7). -/
def Obligations.RefusedExactlyOnBrokenDuties : Prop :=
  ∀ s : State,
    ((∃ t, step s = .next t) ↔ ∀ e rest, s.inputs = e :: rest → e.admitted = true) ∧
    (∀ f, step s ≠ .fault f) ∧
    (∀ (sig : Signals) (rest : List Event), s.inputs = .cycle sig :: rest → sig.rdEn = true → sig.wrEn = true →
      step s = .refused .bothEnables) ∧
    (∀ r, step s = .refused r → r = .bothEnables ∨ r = .narrowOrMisaligned)

/-- R38, R261: a run whose host keeps its duties ends: after one step for each turn and one more, the host has
performed its last transaction and INFLIGHT = NONE. That the engine completes when no turn is left is the model's
form of weak fairness (log 2). -/
def Obligations.AdmittedRunsEndIdle : Prop :=
  ∀ s : State, admittedTrace s = true →
    ∃ t, Host.Core.run core (s.inputs.length + 1) s = .next t ∧ t.final

/-- R29, R32, R227: no read of any slot depends on the key registers, the round keys or the sampled operands; and
the key registers reach nothing in a step that does not accept a KEY: whatever they hold, the step ends in the same
state outside them. -/
def Obligations.KeyMaterialIsUnreadable : Prop :=
  (∀ (s : State) (idx : BitVec 6) (key w : Quad) (rk : RoundKeys),
    portRead idx { s with key := key, w := w, rk := rk } = portRead idx s) ∧
  (∀ (s t : State) (key : Quad), step s = .next t → ¬(s.inflight = .none ∧ t.inflight = .key) →
    ∃ key' : Quad, step { s with key := key } = .next { t with key := key' })

/-- R32, D32: while KEYV = 0 and no transform is in flight, the contents of RK never show: two runs that differ only
there stay equal outside RK, whatever the host does, until a completed KEY makes them equal. -/
def Obligations.UnusedScheduleIsInvisible : Prop :=
  ∀ (n : Nat) (s : State) (rk : RoundKeys), s.keyv = false → s.inflight ≠ .enc → s.inflight ≠ .dec →
    OutcomesMatch (Host.Core.run core n s) (Host.Core.run core n { s with rk := rk })

/-- The invariant of Safety.lean holds after reset. -/
def Obligations.ResetMeetsTheInvariant : Prop := StateInv State.reset

/-- R25, R26, R180, R220, R221: every step from any state that meets the invariant keeps it: codes 0 to 3, nothing
reported while in flight, and KEYV = 1 only over a derived schedule. -/
def Obligations.EveryStepKeepsTheInvariant : Prop :=
  ∀ s t : State, StateInv s → step s = .next t → StateInv t

/-! ### The cipher -/

/-- R165: encrypt and decrypt are mutual inverses for every 32 words in RK. -/
def Obligations.EncryptAndDecryptAreInverses : Prop :=
  ∀ (rk : RoundKeys) (b : Quad), decrypt rk (encrypt rk b) = b ∧ encrypt rk (decrypt rk b) = b

/-- R187, R165: ENC, then DEC of its output copied word for word into DIN, gives the block back through the
commands. -/
def Obligations.DecOfTheCopiedOutputRestoresTheBlock : Prop :=
  ∀ s : State, s.inflight = .none → s.keyv = true →
    ∃ t u, exec .enc s = .next t ∧ exec .dec { engineStep t with din := (engineStep t).dout } = .next u ∧
      (engineStep u).dout = s.din ∧ (engineStep u).err = 0 ∧ (engineStep u).done = true

/-- R145: a round is its own inverse for a fixed source half and offset. -/
def Obligations.RoundIsItsOwnInverse : Prop :=
  ∀ (rk : RoundKeys) (dst src : Half) (o : Fin 31), feistelRound rk (feistelRound rk dst src o) src o = dst

/-- R164: the transforms are the 16 rounds of the round table, and round n of ENC uses the offset of round 17 - n of
DEC. -/
def Obligations.TransformsFollowTheRoundTable : Prop :=
  (∀ (rk : RoundKeys) (b : Quad),
    encrypt rk b = joinBlock ((List.range' 1 16).foldl (tableRound rk encryptOffset) (splitBlock b)) ∧
    decrypt rk b = joinBlock ((List.range' 1 16).foldl (tableRound rk decryptOffset) (splitBlock b))) ∧
  (∀ n : Nat, 1 ≤ n → n ≤ 16 →
    (encryptOffset n).val = 2 * (n - 1) ∧ (decryptOffset n).val = 30 - 2 * (n - 1) ∧
    encryptOffset n = decryptOffset (17 - n))

/-- R140, R141: F depends on the source and key words only through their exclusive or, so a source equal to the key
acts as zero; a round reads only RK[o] and RK[o+1]. -/
def Obligations.RoundReadsItsKeyPairOnly : Prop :=
  (∀ r0 r1 ka kb : Word, F r0 r1 ka kb = F (r0 ^^^ ka) (r1 ^^^ kb) 0 0) ∧
  (∀ ka kb : Word, F ka kb ka kb = F 0 0 0 0) ∧
  (∀ (rk rk' : RoundKeys) (dst src : Half) (o : Fin 31),
    rk[o.val]'(by omega) = rk'[o.val]'(by omega) → rk[o.val + 1]'(by omega) = rk'[o.val + 1]'(by omega) →
      feistelRound rk dst src o = feistelRound rk' dst src o)

/-- R105: the byte form of G, with the mask values FC, F3, CF, 3F. -/
def Obligations.GByteForm : Prop :=
  ∀ (v : Word) (j : Nat), j < 4 →
    byteOf (G v) j =
      (SB1 (byteOf v 0) &&& maskValue j) ^^^ (SB2 (byteOf v 1) &&& maskValue (j + 1)) ^^^
        (SB1 (byteOf v 2) &&& maskValue (j + 2)) ^^^ (SB2 (byteOf v 3) &&& maskValue (j + 3))

/-- R102: the algebraic form of both S-boxes. -/
def Obligations.SboxesHaveTheAlgebraicForm : Prop :=
  ∀ x : Byte,
    SB1 x = linearMap [0x2C, 0xD0, 0x69, 0xC2, 0x41, 0x44, 0x58, 0xE2] (gfPow x 247) ^^^ 0xA9 ∧
    SB2 x = linearMap [0xD0, 0x2A, 0xE1, 0x2C, 0x21, 0x30, 0xA2, 0x6C] (gfPow x 251) ^^^ 0x38

/-- R100, R101: both S-boxes are permutations of the byte values. -/
def Obligations.SboxesArePermutations : Prop := Function.Bijective SB1 ∧ Function.Bijective SB2

/-- R120: KC is the golden-ratio word rotated left by the index. -/
def Obligations.RoundConstantsAreRotations : Prop :=
  KC 0 = 0x9E3779B9 ∧
  (∀ i : Nat, 1 ≤ i → i ≤ 15 → KC i = ((0x9E3779B9 : Word) <<< i) ||| ((0x9E3779B9 : Word) >>> (32 - i))) ∧
  (List.range 16).map KC =
    [0x9E3779B9, 0x3C6EF373, 0x78DDE6E6, 0xF1BBCDCC, 0xE3779B99, 0xC6EF3733, 0x8DDE6E67, 0x1BBCDCCF,
     0x3779B99E, 0x6EF3733C, 0xDDE6E678, 0xBBCDCCF1, 0x779B99E3, 0xEF3733C6, 0xDE6E678D, 0xBCDCCF1B]

/-- R123: step 2e as rotations of 64-bit values, the pair not named unchanged. -/
def Obligations.KeyRotationIsA64BitRotation : Prop :=
  ∀ (i : Nat) (k : Quad),
    (i % 2 = 0 →
      (rotateKey i k).w0 ++ (rotateKey i k).w1 = (k.w0 ++ k.w1).rotateRight 8 ∧
      (rotateKey i k).w2 = k.w2 ∧ (rotateKey i k).w3 = k.w3) ∧
    (i % 2 = 1 →
      (rotateKey i k).w2 ++ (rotateKey i k).w3 = (k.w2 ++ k.w3).rotateLeft 8 ∧
      (rotateKey i k).w0 = k.w0 ∧ (rotateKey i k).w1 = k.w1) ∧
    keyWordsAt (i + 1) k = rotateKey i (keyWordsAt i k) ∧ keyWordsAt 0 k = k

/-- R128: after the 16 rounds both pairs are back at their initial values. -/
def Obligations.KeyWordsReturnAfterSixteenRounds : Prop := ∀ k : Quad, keyWordsAt 16 k = k

/-- R121, R124, R125: round i emits RK[2i] and RK[2i+1] from the key words as they stand after the rotations of the
rounds before it. -/
def Obligations.ScheduleInEmissionOrder : Prop :=
  ∀ (k : Quad) (i : Nat) (h : i < 16),
    (expandKey k)[2 * i] = G (((keyWordsAt i k).w0 + (keyWordsAt i k).w2) - KC i) ∧
    (expandKey k)[2 * i + 1] = G (((keyWordsAt i k).w1 - (keyWordsAt i k).w3) + KC i)

/-- R122: the key split: the engine works on the words KEY0..KEY3 as sampled; key byte 0 is bits 31:24 of k0 and key
byte 15 is bits 7:0 of k3. -/
def Obligations.KeySplitIsTheSampledWords : Prop :=
  (∀ s : State, s.inflight = .none →
    ∃ t, exec (.key 16) s = .next t ∧ t.w = s.key ∧ (engineStep t).rk = expandKey s.key) ∧
  (∀ k : Quad, (quadBytes k)[0]? = some (k.w0.extractLsb' 24 8) ∧
    (quadBytes k)[15]? = some (k.w3.extractLsb' 0 8))

/-- R7, R56, R57: byte 4j + m of a key or block is bits [31-8m : 24-8m] of word j, and assembly and serialisation are
inverse. -/
def Obligations.KeysAndBlocksAreBigEndian : Prop :=
  (∀ (q : Quad) (j m : Fin 4),
    (quadBytes q)[4 * j.val + m.val]? = some ((wordAt q j).extractLsb' (24 - 8 * m.val) 8)) ∧
  (∀ q : Quad, quadOfBytes (quadBytes q) = q) ∧
  (∀ B : List Byte, B.length = 16 → quadBytes (quadOfBytes B) = B)

/-! ### The port's cycles and the word tables -/

/-- R51, R86: the cycle of each transaction: a write cycle is the port write of its slot, a read cycle shows the slot's
value, an idle cycle changes nothing, and both enables are refused (R253b); the signals R86 calls don't care are not
read. That `rdata` is a field, 0 outside reads, is log 3. -/
def Obligations.PortCycleIsItsTransaction : Prop :=
  ∀ (s : State) (idx : BitVec 6) (v : Word),
    portCycle ⟨false, false, true, idx, v⟩ s = portWrite idx v { s with rdata := 0 } ∧
    portCycle ⟨false, true, false, idx, v⟩ s = .next { s with rdata := portRead idx s } ∧
    portCycle ⟨false, false, false, idx, v⟩ s = .next { s with rdata := 0 } ∧
    portCycle ⟨false, true, true, idx, v⟩ s = .refused .bothEnables

/-- R103: the word tables, byte `j` of SSi[x] the S-box value with mask (i + j) mod 4, and the first and last entries of
the listing of each. -/
def Obligations.WordTablesAreMaskedSboxes : Prop :=
  (∀ (x : Byte) (j : Nat), j < 4 →
    byteOf (SS0 x) j = SB1 x &&& maskValue j ∧ byteOf (SS1 x) j = SB2 x &&& maskValue (1 + j) ∧
    byteOf (SS2 x) j = SB1 x &&& maskValue (2 + j) ∧ byteOf (SS3 x) j = SB2 x &&& maskValue (3 + j)) ∧
  SS0 0x00 = 0x2989A1A8 ∧ SS0 0xFF = 0x1A8A9298 ∧
  SS1 0x00 = 0x38380830 ∧ SS1 0xFF = 0xB43787B3 ∧
  SS2 0x00 = 0xA1A82989 ∧ SS2 0xFF = 0x92981A8A ∧
  SS3 0x00 = 0x08303838 ∧ SS3 0xFF = 0x87B3B437
end

