-- ==== Sys2Proof/Laws/Datapath.lean ====
section
/-! SUPPORT. Small laws of words, bytes and the datapath's building blocks. -/

namespace Sys2Proof.Machine

/-- Which bit of which byte is bit `i` of a packed word. -/
theorem getLsbD_packBytes (b3 b2 b1 b0 : Byte) (i : Nat) :
    (packBytes b3 b2 b1 b0).getLsbD i =
      if i < 8 then b0.getLsbD i
      else if i < 16 then b1.getLsbD (i - 8)
      else if i < 24 then b2.getLsbD (i - 16)
      else b3.getLsbD (i - 24) := by
  by_cases h : i < 32
  · interval_cases i <;> simp [packBytes]
  · have top : b3.getLsbD (i - 24) = false := BitVec.getLsbD_of_ge _ _ (by omega)
    rw [if_neg (by omega), if_neg (by omega), if_neg (by omega), top]
    exact BitVec.getLsbD_of_ge _ _ (by omega)

@[simp] theorem byteOf_packBytes_0 (b3 b2 b1 b0 : Byte) : byteOf (packBytes b3 b2 b1 b0) 0 = b0 := by
  apply BitVec.eq_of_getLsbD_eq
  intro i hi
  interval_cases i <;> simp [byteOf, packBytes]

@[simp] theorem byteOf_packBytes_1 (b3 b2 b1 b0 : Byte) : byteOf (packBytes b3 b2 b1 b0) 1 = b1 := by
  apply BitVec.eq_of_getLsbD_eq
  intro i hi
  interval_cases i <;> simp [byteOf, packBytes]

@[simp] theorem byteOf_packBytes_2 (b3 b2 b1 b0 : Byte) : byteOf (packBytes b3 b2 b1 b0) 2 = b2 := by
  apply BitVec.eq_of_getLsbD_eq
  intro i hi
  interval_cases i <;> simp [byteOf, packBytes]

@[simp] theorem byteOf_packBytes_3 (b3 b2 b1 b0 : Byte) : byteOf (packBytes b3 b2 b1 b0) 3 = b3 := by
  apply BitVec.eq_of_getLsbD_eq
  intro i hi
  interval_cases i <;> simp [byteOf, packBytes]

@[simp] theorem packBytes_byteOf (w : Word) :
    packBytes (byteOf w 3) (byteOf w 2) (byteOf w 1) (byteOf w 0) = w := by
  apply BitVec.eq_of_getLsbD_eq
  intro i hi
  rw [getLsbD_packBytes]
  interval_cases i <;> simp [byteOf]

@[simp] theorem xorHalf_xorHalf (a b : Half) : xorHalf (xorHalf a b) b = a := by
  cases a
  cases b
  simp [xorHalf]

@[simp] theorem splitBlock_joinBlock (h : Halves) : splitBlock (joinBlock h) = ⟨h.right, h.left⟩ := rfl

@[simp] theorem joinBlock_swap_splitBlock (b : Quad) :
    joinBlock ⟨(splitBlock b).right, (splitBlock b).left⟩ = b := rfl

/-- The key words at the start of the round after `n` more rounds, from those at the start of round `i`. -/
def keyWordsFrom (i : Nat) : Nat → Quad → Quad
  | 0, k => k
  | n + 1, k => keyWordsFrom (i + 1) n (rotateKey i k)

/-- Emission `n` of the rounds from round `i`: the pair of words and the key words it reads. -/
theorem scheduleFrom_getElem? (i n : Nat) (cs : List Word) (k : Quad) (h : n < cs.length) :
    (scheduleFrom i cs k)[2 * n]? =
        some (G (((keyWordsFrom i n k).w0 + (keyWordsFrom i n k).w2) - cs[n])) ∧
      (scheduleFrom i cs k)[2 * n + 1]? =
        some (G (((keyWordsFrom i n k).w1 - (keyWordsFrom i n k).w3) + cs[n])) := by
  induction n generalizing i cs k with
  | zero =>
    cases cs with
    | nil => simp at h
    | cons c cs => exact ⟨rfl, rfl⟩
  | succ n ih =>
    cases cs with
    | nil => simp at h
    | cons c cs =>
      have := ih (i + 1) cs (rotateKey i k) (by simpa using h)
      simpa [scheduleFrom, keyWordsFrom, Nat.mul_succ] using this

end Sys2Proof.Machine
end

