-- ==== Sys2Proof/Laws/State.lean ====
section
/-! SUPPORT. One lemma per field per update of State, so that no proof unfolds a record update. -/

namespace Sys2Proof.Machine

/-! ### acceptance's clears (44_commands R180) -/

@[simp] theorem State.clearReport_inflight (s : State) : (State.clearReport s).inflight = s.inflight := rfl
@[simp] theorem State.clearReport_done (s : State) : (State.clearReport s).done = false := rfl
@[simp] theorem State.clearReport_keyv (s : State) : (State.clearReport s).keyv = s.keyv := rfl
@[simp] theorem State.clearReport_ovr (s : State) : (State.clearReport s).ovr = false := rfl
@[simp] theorem State.clearReport_err (s : State) : (State.clearReport s).err = 0 := rfl
@[simp] theorem State.clearReport_key (s : State) : (State.clearReport s).key = s.key := rfl
@[simp] theorem State.clearReport_din (s : State) : (State.clearReport s).din = s.din := rfl
@[simp] theorem State.clearReport_dout (s : State) : (State.clearReport s).dout = s.dout := rfl
@[simp] theorem State.clearReport_rk (s : State) : (State.clearReport s).rk = s.rk := rfl
@[simp] theorem State.clearReport_w (s : State) : (State.clearReport s).w = s.w := rfl
@[simp] theorem State.clearReport_rdata (s : State) : (State.clearReport s).rdata = s.rdata := rfl
@[simp] theorem State.clearReport_inputs (s : State) : (State.clearReport s).inputs = s.inputs := rfl

/-! ### a dropped CMD write (10_state R26) -/

@[simp] theorem State.setOverrun_inflight (s : State) : (State.setOverrun s).inflight = s.inflight := rfl
@[simp] theorem State.setOverrun_done (s : State) : (State.setOverrun s).done = s.done := rfl
@[simp] theorem State.setOverrun_keyv (s : State) : (State.setOverrun s).keyv = s.keyv := rfl
@[simp] theorem State.setOverrun_ovr (s : State) : (State.setOverrun s).ovr = true := rfl
@[simp] theorem State.setOverrun_err (s : State) : (State.setOverrun s).err = s.err := rfl
@[simp] theorem State.setOverrun_key (s : State) : (State.setOverrun s).key = s.key := rfl
@[simp] theorem State.setOverrun_din (s : State) : (State.setOverrun s).din = s.din := rfl
@[simp] theorem State.setOverrun_dout (s : State) : (State.setOverrun s).dout = s.dout := rfl
@[simp] theorem State.setOverrun_rk (s : State) : (State.setOverrun s).rk = s.rk := rfl
@[simp] theorem State.setOverrun_w (s : State) : (State.setOverrun s).w = s.w := rfl
@[simp] theorem State.setOverrun_rdata (s : State) : (State.setOverrun s).rdata = s.rdata := rfl
@[simp] theorem State.setOverrun_inputs (s : State) : (State.setOverrun s).inputs = s.inputs := rfl

/-! ### KEYV (10_state R25) -/

@[simp] theorem State.setKeyv_inflight (b : Bool) (s : State) : (State.setKeyv b s).inflight = s.inflight := rfl
@[simp] theorem State.setKeyv_done (b : Bool) (s : State) : (State.setKeyv b s).done = s.done := rfl
@[simp] theorem State.setKeyv_keyv (b : Bool) (s : State) : (State.setKeyv b s).keyv = b := rfl
@[simp] theorem State.setKeyv_ovr (b : Bool) (s : State) : (State.setKeyv b s).ovr = s.ovr := rfl
@[simp] theorem State.setKeyv_err (b : Bool) (s : State) : (State.setKeyv b s).err = s.err := rfl
@[simp] theorem State.setKeyv_key (b : Bool) (s : State) : (State.setKeyv b s).key = s.key := rfl
@[simp] theorem State.setKeyv_din (b : Bool) (s : State) : (State.setKeyv b s).din = s.din := rfl
@[simp] theorem State.setKeyv_dout (b : Bool) (s : State) : (State.setKeyv b s).dout = s.dout := rfl
@[simp] theorem State.setKeyv_rk (b : Bool) (s : State) : (State.setKeyv b s).rk = s.rk := rfl
@[simp] theorem State.setKeyv_w (b : Bool) (s : State) : (State.setKeyv b s).w = s.w := rfl
@[simp] theorem State.setKeyv_rdata (b : Bool) (s : State) : (State.setKeyv b s).rdata = s.rdata := rfl
@[simp] theorem State.setKeyv_inputs (b : Bool) (s : State) : (State.setKeyv b s).inputs = s.inputs := rfl

/-! ### KEY's operands (44_commands R183) -/

@[simp] theorem State.sampleKey_inflight (s : State) : (State.sampleKey s).inflight = s.inflight := rfl
@[simp] theorem State.sampleKey_done (s : State) : (State.sampleKey s).done = s.done := rfl
@[simp] theorem State.sampleKey_keyv (s : State) : (State.sampleKey s).keyv = s.keyv := rfl
@[simp] theorem State.sampleKey_ovr (s : State) : (State.sampleKey s).ovr = s.ovr := rfl
@[simp] theorem State.sampleKey_err (s : State) : (State.sampleKey s).err = s.err := rfl
@[simp] theorem State.sampleKey_key (s : State) : (State.sampleKey s).key = Quad.zero := rfl
@[simp] theorem State.sampleKey_din (s : State) : (State.sampleKey s).din = s.din := rfl
@[simp] theorem State.sampleKey_dout (s : State) : (State.sampleKey s).dout = s.dout := rfl
@[simp] theorem State.sampleKey_rk (s : State) : (State.sampleKey s).rk = s.rk := rfl
@[simp] theorem State.sampleKey_w (s : State) : (State.sampleKey s).w = s.key := rfl
@[simp] theorem State.sampleKey_rdata (s : State) : (State.sampleKey s).rdata = s.rdata := rfl
@[simp] theorem State.sampleKey_inputs (s : State) : (State.sampleKey s).inputs = s.inputs := rfl

/-! ### ENC's and DEC's operands (44_commands R185, R187) -/

@[simp] theorem State.sampleDin_inflight (s : State) : (State.sampleDin s).inflight = s.inflight := rfl
@[simp] theorem State.sampleDin_done (s : State) : (State.sampleDin s).done = s.done := rfl
@[simp] theorem State.sampleDin_keyv (s : State) : (State.sampleDin s).keyv = s.keyv := rfl
@[simp] theorem State.sampleDin_ovr (s : State) : (State.sampleDin s).ovr = s.ovr := rfl
@[simp] theorem State.sampleDin_err (s : State) : (State.sampleDin s).err = s.err := rfl
@[simp] theorem State.sampleDin_key (s : State) : (State.sampleDin s).key = s.key := rfl
@[simp] theorem State.sampleDin_din (s : State) : (State.sampleDin s).din = s.din := rfl
@[simp] theorem State.sampleDin_dout (s : State) : (State.sampleDin s).dout = s.dout := rfl
@[simp] theorem State.sampleDin_rk (s : State) : (State.sampleDin s).rk = s.rk := rfl
@[simp] theorem State.sampleDin_w (s : State) : (State.sampleDin s).w = s.din := rfl
@[simp] theorem State.sampleDin_rdata (s : State) : (State.sampleDin s).rdata = s.rdata := rfl
@[simp] theorem State.sampleDin_inputs (s : State) : (State.sampleDin s).inputs = s.inputs := rfl

/-! ### GSUB's operand (44_commands R191) -/

@[simp] theorem State.sampleDin0_inflight (s : State) : (State.sampleDin0 s).inflight = s.inflight := rfl
@[simp] theorem State.sampleDin0_done (s : State) : (State.sampleDin0 s).done = s.done := rfl
@[simp] theorem State.sampleDin0_keyv (s : State) : (State.sampleDin0 s).keyv = s.keyv := rfl
@[simp] theorem State.sampleDin0_ovr (s : State) : (State.sampleDin0 s).ovr = s.ovr := rfl
@[simp] theorem State.sampleDin0_err (s : State) : (State.sampleDin0 s).err = s.err := rfl
@[simp] theorem State.sampleDin0_key (s : State) : (State.sampleDin0 s).key = s.key := rfl
@[simp] theorem State.sampleDin0_din (s : State) : (State.sampleDin0 s).din = s.din := rfl
@[simp] theorem State.sampleDin0_dout (s : State) : (State.sampleDin0 s).dout = s.dout := rfl
@[simp] theorem State.sampleDin0_rk (s : State) : (State.sampleDin0 s).rk = s.rk := rfl
@[simp] theorem State.sampleDin0_w (s : State) : (State.sampleDin0 s).w = ⟨s.din.w0, s.w.w1, s.w.w2, s.w.w3⟩ := rfl
@[simp] theorem State.sampleDin0_rdata (s : State) : (State.sampleDin0 s).rdata = s.rdata := rfl
@[simp] theorem State.sampleDin0_inputs (s : State) : (State.sampleDin0 s).inputs = s.inputs := rfl

/-! ### RK (10_state R32) -/

@[simp] theorem State.setRoundKeys_inflight (rk : RoundKeys) (s : State) : (State.setRoundKeys rk s).inflight = s.inflight := rfl
@[simp] theorem State.setRoundKeys_done (rk : RoundKeys) (s : State) : (State.setRoundKeys rk s).done = s.done := rfl
@[simp] theorem State.setRoundKeys_keyv (rk : RoundKeys) (s : State) : (State.setRoundKeys rk s).keyv = s.keyv := rfl
@[simp] theorem State.setRoundKeys_ovr (rk : RoundKeys) (s : State) : (State.setRoundKeys rk s).ovr = s.ovr := rfl
@[simp] theorem State.setRoundKeys_err (rk : RoundKeys) (s : State) : (State.setRoundKeys rk s).err = s.err := rfl
@[simp] theorem State.setRoundKeys_key (rk : RoundKeys) (s : State) : (State.setRoundKeys rk s).key = s.key := rfl
@[simp] theorem State.setRoundKeys_din (rk : RoundKeys) (s : State) : (State.setRoundKeys rk s).din = s.din := rfl
@[simp] theorem State.setRoundKeys_dout (rk : RoundKeys) (s : State) : (State.setRoundKeys rk s).dout = s.dout := rfl
@[simp] theorem State.setRoundKeys_rk (rk : RoundKeys) (s : State) : (State.setRoundKeys rk s).rk = rk := rfl
@[simp] theorem State.setRoundKeys_w (rk : RoundKeys) (s : State) : (State.setRoundKeys rk s).w = s.w := rfl
@[simp] theorem State.setRoundKeys_rdata (rk : RoundKeys) (s : State) : (State.setRoundKeys rk s).rdata = s.rdata := rfl
@[simp] theorem State.setRoundKeys_inputs (rk : RoundKeys) (s : State) : (State.setRoundKeys rk s).inputs = s.inputs := rfl

/-! ### DOUT (10_state R31) -/

@[simp] theorem State.setDout_inflight (q : Quad) (s : State) : (State.setDout q s).inflight = s.inflight := rfl
@[simp] theorem State.setDout_done (q : Quad) (s : State) : (State.setDout q s).done = s.done := rfl
@[simp] theorem State.setDout_keyv (q : Quad) (s : State) : (State.setDout q s).keyv = s.keyv := rfl
@[simp] theorem State.setDout_ovr (q : Quad) (s : State) : (State.setDout q s).ovr = s.ovr := rfl
@[simp] theorem State.setDout_err (q : Quad) (s : State) : (State.setDout q s).err = s.err := rfl
@[simp] theorem State.setDout_key (q : Quad) (s : State) : (State.setDout q s).key = s.key := rfl
@[simp] theorem State.setDout_din (q : Quad) (s : State) : (State.setDout q s).din = s.din := rfl
@[simp] theorem State.setDout_dout (q : Quad) (s : State) : (State.setDout q s).dout = q := rfl
@[simp] theorem State.setDout_rk (q : Quad) (s : State) : (State.setDout q s).rk = s.rk := rfl
@[simp] theorem State.setDout_w (q : Quad) (s : State) : (State.setDout q s).w = s.w := rfl
@[simp] theorem State.setDout_rdata (q : Quad) (s : State) : (State.setDout q s).rdata = s.rdata := rfl
@[simp] theorem State.setDout_inputs (q : Quad) (s : State) : (State.setDout q s).inputs = s.inputs := rfl

/-! ### raise Error (60_exceptions R221) -/

@[simp] theorem State.raiseError_inflight (code : BitVec 4) (s : State) : (State.raiseError code s).inflight = s.inflight := rfl
@[simp] theorem State.raiseError_done (code : BitVec 4) (s : State) : (State.raiseError code s).done = true := rfl
@[simp] theorem State.raiseError_keyv (code : BitVec 4) (s : State) : (State.raiseError code s).keyv = s.keyv := rfl
@[simp] theorem State.raiseError_ovr (code : BitVec 4) (s : State) : (State.raiseError code s).ovr = s.ovr := rfl
@[simp] theorem State.raiseError_err (code : BitVec 4) (s : State) : (State.raiseError code s).err = code := rfl
@[simp] theorem State.raiseError_key (code : BitVec 4) (s : State) : (State.raiseError code s).key = s.key := rfl
@[simp] theorem State.raiseError_din (code : BitVec 4) (s : State) : (State.raiseError code s).din = s.din := rfl
@[simp] theorem State.raiseError_dout (code : BitVec 4) (s : State) : (State.raiseError code s).dout = s.dout := rfl
@[simp] theorem State.raiseError_rk (code : BitVec 4) (s : State) : (State.raiseError code s).rk = s.rk := rfl
@[simp] theorem State.raiseError_w (code : BitVec 4) (s : State) : (State.raiseError code s).w = s.w := rfl
@[simp] theorem State.raiseError_rdata (code : BitVec 4) (s : State) : (State.raiseError code s).rdata = s.rdata := rfl
@[simp] theorem State.raiseError_inputs (code : BitVec 4) (s : State) : (State.raiseError code s).inputs = s.inputs := rfl

/-! ### INFLIGHT at acceptance (10_state R33) -/

@[simp] theorem State.launch_inflight (op : Inflight) (s : State) : (State.launch op s).inflight = op := rfl
@[simp] theorem State.launch_done (op : Inflight) (s : State) : (State.launch op s).done = s.done := rfl
@[simp] theorem State.launch_keyv (op : Inflight) (s : State) : (State.launch op s).keyv = s.keyv := rfl
@[simp] theorem State.launch_ovr (op : Inflight) (s : State) : (State.launch op s).ovr = s.ovr := rfl
@[simp] theorem State.launch_err (op : Inflight) (s : State) : (State.launch op s).err = s.err := rfl
@[simp] theorem State.launch_key (op : Inflight) (s : State) : (State.launch op s).key = s.key := rfl
@[simp] theorem State.launch_din (op : Inflight) (s : State) : (State.launch op s).din = s.din := rfl
@[simp] theorem State.launch_dout (op : Inflight) (s : State) : (State.launch op s).dout = s.dout := rfl
@[simp] theorem State.launch_rk (op : Inflight) (s : State) : (State.launch op s).rk = s.rk := rfl
@[simp] theorem State.launch_w (op : Inflight) (s : State) : (State.launch op s).w = s.w := rfl
@[simp] theorem State.launch_rdata (op : Inflight) (s : State) : (State.launch op s).rdata = s.rdata := rfl
@[simp] theorem State.launch_inputs (op : Inflight) (s : State) : (State.launch op s).inputs = s.inputs := rfl

/-! ### the end of a completion (44_commands R181) -/

@[simp] theorem State.finish_inflight (s : State) : (State.finish s).inflight = .none := rfl
@[simp] theorem State.finish_done (s : State) : (State.finish s).done = true := rfl
@[simp] theorem State.finish_keyv (s : State) : (State.finish s).keyv = s.keyv := rfl
@[simp] theorem State.finish_ovr (s : State) : (State.finish s).ovr = s.ovr := rfl
@[simp] theorem State.finish_err (s : State) : (State.finish s).err = s.err := rfl
@[simp] theorem State.finish_key (s : State) : (State.finish s).key = s.key := rfl
@[simp] theorem State.finish_din (s : State) : (State.finish s).din = s.din := rfl
@[simp] theorem State.finish_dout (s : State) : (State.finish s).dout = s.dout := rfl
@[simp] theorem State.finish_rk (s : State) : (State.finish s).rk = s.rk := rfl
@[simp] theorem State.finish_w (s : State) : (State.finish s).w = s.w := rfl
@[simp] theorem State.finish_rdata (s : State) : (State.finish s).rdata = s.rdata := rfl
@[simp] theorem State.finish_inputs (s : State) : (State.finish s).inputs = s.inputs := rfl

/-! ### a host write of KEYj (20_memory R55) -/

@[simp] theorem State.setKeyWord_inflight (j : Fin 4) (v : Word) (s : State) : (State.setKeyWord j v s).inflight = s.inflight := rfl
@[simp] theorem State.setKeyWord_done (j : Fin 4) (v : Word) (s : State) : (State.setKeyWord j v s).done = s.done := rfl
@[simp] theorem State.setKeyWord_keyv (j : Fin 4) (v : Word) (s : State) : (State.setKeyWord j v s).keyv = s.keyv := rfl
@[simp] theorem State.setKeyWord_ovr (j : Fin 4) (v : Word) (s : State) : (State.setKeyWord j v s).ovr = s.ovr := rfl
@[simp] theorem State.setKeyWord_err (j : Fin 4) (v : Word) (s : State) : (State.setKeyWord j v s).err = s.err := rfl
@[simp] theorem State.setKeyWord_key (j : Fin 4) (v : Word) (s : State) : (State.setKeyWord j v s).key = setWord s.key j v := rfl
@[simp] theorem State.setKeyWord_din (j : Fin 4) (v : Word) (s : State) : (State.setKeyWord j v s).din = s.din := rfl
@[simp] theorem State.setKeyWord_dout (j : Fin 4) (v : Word) (s : State) : (State.setKeyWord j v s).dout = s.dout := rfl
@[simp] theorem State.setKeyWord_rk (j : Fin 4) (v : Word) (s : State) : (State.setKeyWord j v s).rk = s.rk := rfl
@[simp] theorem State.setKeyWord_w (j : Fin 4) (v : Word) (s : State) : (State.setKeyWord j v s).w = s.w := rfl
@[simp] theorem State.setKeyWord_rdata (j : Fin 4) (v : Word) (s : State) : (State.setKeyWord j v s).rdata = s.rdata := rfl
@[simp] theorem State.setKeyWord_inputs (j : Fin 4) (v : Word) (s : State) : (State.setKeyWord j v s).inputs = s.inputs := rfl

/-! ### a host write of DINj (20_memory R55) -/

@[simp] theorem State.setDinWord_inflight (j : Fin 4) (v : Word) (s : State) : (State.setDinWord j v s).inflight = s.inflight := rfl
@[simp] theorem State.setDinWord_done (j : Fin 4) (v : Word) (s : State) : (State.setDinWord j v s).done = s.done := rfl
@[simp] theorem State.setDinWord_keyv (j : Fin 4) (v : Word) (s : State) : (State.setDinWord j v s).keyv = s.keyv := rfl
@[simp] theorem State.setDinWord_ovr (j : Fin 4) (v : Word) (s : State) : (State.setDinWord j v s).ovr = s.ovr := rfl
@[simp] theorem State.setDinWord_err (j : Fin 4) (v : Word) (s : State) : (State.setDinWord j v s).err = s.err := rfl
@[simp] theorem State.setDinWord_key (j : Fin 4) (v : Word) (s : State) : (State.setDinWord j v s).key = s.key := rfl
@[simp] theorem State.setDinWord_din (j : Fin 4) (v : Word) (s : State) : (State.setDinWord j v s).din = setWord s.din j v := rfl
@[simp] theorem State.setDinWord_dout (j : Fin 4) (v : Word) (s : State) : (State.setDinWord j v s).dout = s.dout := rfl
@[simp] theorem State.setDinWord_rk (j : Fin 4) (v : Word) (s : State) : (State.setDinWord j v s).rk = s.rk := rfl
@[simp] theorem State.setDinWord_w (j : Fin 4) (v : Word) (s : State) : (State.setDinWord j v s).w = s.w := rfl
@[simp] theorem State.setDinWord_rdata (j : Fin 4) (v : Word) (s : State) : (State.setDinWord j v s).rdata = s.rdata := rfl
@[simp] theorem State.setDinWord_inputs (j : Fin 4) (v : Word) (s : State) : (State.setDinWord j v s).inputs = s.inputs := rfl

/-! ### the output signal (20_memory R51) -/

@[simp] theorem State.setRdata_inflight (v : Word) (s : State) : (State.setRdata v s).inflight = s.inflight := rfl
@[simp] theorem State.setRdata_done (v : Word) (s : State) : (State.setRdata v s).done = s.done := rfl
@[simp] theorem State.setRdata_keyv (v : Word) (s : State) : (State.setRdata v s).keyv = s.keyv := rfl
@[simp] theorem State.setRdata_ovr (v : Word) (s : State) : (State.setRdata v s).ovr = s.ovr := rfl
@[simp] theorem State.setRdata_err (v : Word) (s : State) : (State.setRdata v s).err = s.err := rfl
@[simp] theorem State.setRdata_key (v : Word) (s : State) : (State.setRdata v s).key = s.key := rfl
@[simp] theorem State.setRdata_din (v : Word) (s : State) : (State.setRdata v s).din = s.din := rfl
@[simp] theorem State.setRdata_dout (v : Word) (s : State) : (State.setRdata v s).dout = s.dout := rfl
@[simp] theorem State.setRdata_rk (v : Word) (s : State) : (State.setRdata v s).rk = s.rk := rfl
@[simp] theorem State.setRdata_w (v : Word) (s : State) : (State.setRdata v s).w = s.w := rfl
@[simp] theorem State.setRdata_rdata (v : Word) (s : State) : (State.setRdata v s).rdata = v := rfl
@[simp] theorem State.setRdata_inputs (v : Word) (s : State) : (State.setRdata v s).inputs = s.inputs := rfl

/-! ### the turns still to come (10_state R37) -/

@[simp] theorem State.setInputs_inflight (l : List Event) (s : State) : (State.setInputs l s).inflight = s.inflight := rfl
@[simp] theorem State.setInputs_done (l : List Event) (s : State) : (State.setInputs l s).done = s.done := rfl
@[simp] theorem State.setInputs_keyv (l : List Event) (s : State) : (State.setInputs l s).keyv = s.keyv := rfl
@[simp] theorem State.setInputs_ovr (l : List Event) (s : State) : (State.setInputs l s).ovr = s.ovr := rfl
@[simp] theorem State.setInputs_err (l : List Event) (s : State) : (State.setInputs l s).err = s.err := rfl
@[simp] theorem State.setInputs_key (l : List Event) (s : State) : (State.setInputs l s).key = s.key := rfl
@[simp] theorem State.setInputs_din (l : List Event) (s : State) : (State.setInputs l s).din = s.din := rfl
@[simp] theorem State.setInputs_dout (l : List Event) (s : State) : (State.setInputs l s).dout = s.dout := rfl
@[simp] theorem State.setInputs_rk (l : List Event) (s : State) : (State.setInputs l s).rk = s.rk := rfl
@[simp] theorem State.setInputs_w (l : List Event) (s : State) : (State.setInputs l s).w = s.w := rfl
@[simp] theorem State.setInputs_rdata (l : List Event) (s : State) : (State.setInputs l s).rdata = s.rdata := rfl
@[simp] theorem State.setInputs_inputs (l : List Event) (s : State) : (State.setInputs l s).inputs = l := rfl

/-! ### Reset (70_reset R251) -/

@[simp] theorem resetCore_inflight (s : State) : (resetCore s).inflight = .none := rfl
@[simp] theorem resetCore_done (s : State) : (resetCore s).done = false := rfl
@[simp] theorem resetCore_keyv (s : State) : (resetCore s).keyv = false := rfl
@[simp] theorem resetCore_ovr (s : State) : (resetCore s).ovr = false := rfl
@[simp] theorem resetCore_err (s : State) : (resetCore s).err = 0 := rfl
@[simp] theorem resetCore_key (s : State) : (resetCore s).key = Quad.zero := rfl
@[simp] theorem resetCore_din (s : State) : (resetCore s).din = Quad.zero := rfl
@[simp] theorem resetCore_dout (s : State) : (resetCore s).dout = Quad.zero := rfl
@[simp] theorem resetCore_rk (s : State) : (resetCore s).rk = Vector.replicate 32 0 := rfl
@[simp] theorem resetCore_w (s : State) : (resetCore s).w = Quad.zero := rfl
@[simp] theorem resetCore_rdata (s : State) : (resetCore s).rdata = 0 := rfl
@[simp] theorem resetCore_inputs (s : State) : (resetCore s).inputs = s.inputs := rfl

end Sys2Proof.Machine
end

