-- ==== Sys2Proof/Laws/Ops.lean ====
section
/-! SUPPORT. What each shared operation can do, once: acceptance, the six meanings, the CMD write, the engine's
step, register groups, and the port's slots. -/

namespace Sys2Proof.Machine

/-! ### Register groups -/

@[simp] theorem wordAt_setWord_same (q : Quad) (j : Fin 4) (v : Word) : wordAt (setWord q j v) j = v := by
  fin_cases j <;> rfl

theorem wordAt_setWord_ne (q : Quad) {j k : Fin 4} (v : Word) (h : k ≠ j) :
    wordAt (setWord q j v) k = wordAt q k := by
  fin_cases j <;> fin_cases k <;> first | rfl | exact absurd rfl h

@[simp] theorem setWord_setWord_same (q : Quad) (j : Fin 4) (v v' : Word) :
    setWord (setWord q j v) j v' = setWord q j v' := by
  fin_cases j <;> rfl

/-! ### Acceptance -/

theorem accept_idle {s : State} (rule : State → State) (h : s.inflight = .none) :
    accept rule s = rule s.clearReport := if_pos h

theorem accept_busy {s : State} (rule : State → State) (h : s.inflight ≠ .none) :
    accept rule s = s.setOverrun := if_neg h

/-- The state in which the command's own rule acts, and the rule of each word (44_commands R180). -/
def ruleOf : Decoded → State → State
  | .instr .nop => id
  | .instr (.key len) => acceptKey len
  | .instr .enc => acceptTransform .enc
  | .instr .dec => acceptTransform .dec
  | .instr .wipe => acceptWipe
  | .instr .gsub => acceptGsub
  | .illegal _ => State.raiseError errIllegalCmd

/-- Every meaning is an acceptance with the command's own rule. -/
theorem exec_eq_accept (i : Instr) (s : State) : exec i s = .next (accept (ruleOf (.instr i)) s) := by
  cases i <;> rfl

/-- A CMD write is an acceptance with the rule of the decoded word. -/
theorem writeCmd_eq_accept (v : Word) (s : State) : writeCmd v s = .next (accept (ruleOf (decode v)) s) := by
  unfold writeCmd
  cases decode v with
  | instr i => exact exec_eq_accept i s
  | illegal why => rfl

theorem exec_idle {s : State} (i : Instr) (h : s.inflight = .none) :
    exec i s = .next (ruleOf (.instr i) s.clearReport) := by rw [exec_eq_accept, accept_idle _ h]

theorem exec_busy {s : State} (i : Instr) (h : s.inflight ≠ .none) : exec i s = .next s.setOverrun := by
  rw [exec_eq_accept, accept_busy _ h]

theorem writeCmd_idle {s : State} (v : Word) (h : s.inflight = .none) :
    writeCmd v s = .next (ruleOf (decode v) s.clearReport) := by rw [writeCmd_eq_accept, accept_idle _ h]

theorem writeCmd_busy {s : State} (v : Word) (h : s.inflight ≠ .none) : writeCmd v s = .next s.setOverrun := by
  rw [writeCmd_eq_accept, accept_busy _ h]

/-- What the rule of a command or an ILLEGAL word makes of a cleared state: an error, the state as it is for NOP, or
the command in flight with its operands sampled (44_commands R182 to R193). -/
theorem ruleOf_cases (d : Decoded) (s : State) :
    (∃ code : BitVec 4, (code = 1 ∨ code = 2 ∨ code = 3) ∧ ruleOf d s = s.raiseError code) ∨
    (d = .instr .nop ∧ ruleOf d s = s) ∨
    (d = .instr (.key 16) ∧ ruleOf d s = (s.sampleKey.setKeyv false).launch .key) ∨
    (d = .instr .enc ∧ s.keyv = true ∧ ruleOf d s = s.sampleDin.launch .enc) ∨
    (d = .instr .dec ∧ s.keyv = true ∧ ruleOf d s = s.sampleDin.launch .dec) ∨
    (d = .instr .wipe ∧ ruleOf d s = (s.setKeyv false).launch .wipe) ∨
    (d = .instr .gsub ∧ ruleOf d s = s.sampleDin0.launch .gsub) := by
  have transform : ∀ op, acceptTransform op s = s.raiseError 2 ∨
      s.keyv = true ∧ acceptTransform op s = s.sampleDin.launch op := by
    intro op
    unfold acceptTransform
    split
    · exact .inl rfl
    · next h => exact .inr ⟨by simpa using h, rfl⟩
  cases d with
  | illegal why => exact .inl ⟨3, by simp, rfl⟩
  | instr i =>
    cases i with
    | nop => exact .inr (.inl ⟨rfl, rfl⟩)
    | key len =>
      by_cases h : len = 16
      · exact .inr (.inr (.inl ⟨by rw [h], if_pos h⟩))
      · exact .inl ⟨1, by simp, if_neg h⟩
    | enc =>
      rcases transform .enc with h | h
      · exact .inl ⟨2, by simp, h⟩
      · exact .inr (.inr (.inr (.inl ⟨rfl, h⟩)))
    | dec =>
      rcases transform .dec with h | h
      · exact .inl ⟨2, by simp, h⟩
      · exact .inr (.inr (.inr (.inr (.inl ⟨rfl, h⟩))))
    | wipe => exact .inr (.inr (.inr (.inr (.inr (.inl ⟨rfl, rfl⟩)))))
    | gsub => exact .inr (.inr (.inr (.inr (.inr (.inr ⟨rfl, rfl⟩)))))

/-- A CMD write: dropped, or accepted with the effect of its rule (44_commands R180). -/
theorem writeCmd_cases {v : Word} {s t : State} (h : writeCmd v s = .next t) :
    (s.inflight ≠ .none ∧ t = s.setOverrun) ∨
      (s.inflight = .none ∧ t = ruleOf (decode v) s.clearReport) := by
  by_cases hb : s.inflight = .none
  · rw [writeCmd_idle v hb] at h
    cases h
    exact .inr ⟨hb, rfl⟩
  · rw [writeCmd_busy v hb] at h
    cases h
    exact .inl ⟨hb, rfl⟩

/-- What no CMD write changes (44_commands R194). -/
theorem writeCmd_frame {v : Word} {s t : State} (h : writeCmd v s = .next t) :
    t.din = s.din ∧ t.dout = s.dout ∧ t.rk = s.rk ∧ t.rdata = s.rdata ∧ t.inputs = s.inputs := by
  rcases writeCmd_cases h with ⟨-, rfl⟩ | ⟨-, rfl⟩
  · simp
  · rcases ruleOf_cases (decode v) s.clearReport with
      ⟨c, -, e⟩ | ⟨-, e⟩ | ⟨-, e⟩ | ⟨-, -, e⟩ | ⟨-, -, e⟩ | ⟨-, e⟩ | ⟨-, e⟩ <;> rw [e] <;> simp

/-! ### The engine's step -/

theorem engineStep_none {s : State} (h : s.inflight = .none) : engineStep s = s := by simp [engineStep, h]

theorem engineStep_key {s : State} (h : s.inflight = .key) : engineStep s = (completeKey s).finish := by
  simp [engineStep, h]

theorem engineStep_enc {s : State} (h : s.inflight = .enc) : engineStep s = (completeEnc s).finish := by
  simp [engineStep, h]

theorem engineStep_dec {s : State} (h : s.inflight = .dec) : engineStep s = (completeDec s).finish := by
  simp [engineStep, h]

theorem engineStep_wipe {s : State} (h : s.inflight = .wipe) : engineStep s = (completeWipe s).finish := by
  simp [engineStep, h]

theorem engineStep_gsub {s : State} (h : s.inflight = .gsub) : engineStep s = (completeGsub s).finish := by
  simp [engineStep, h]

/-- The engine's turn always leaves the core idle (44_commands R181). -/
@[simp] theorem engineStep_inflight (s : State) : (engineStep s).inflight = .none := by
  unfold engineStep
  split <;> simp_all

@[simp] theorem engineStep_inputs (s : State) : (engineStep s).inputs = s.inputs := by
  unfold engineStep
  split <;> rfl

/-- What no completion changes (44_commands R181, R194). -/
theorem engineStep_frame (s : State) :
    (engineStep s).err = s.err ∧ (engineStep s).ovr = s.ovr ∧ (engineStep s).key = s.key ∧
      (engineStep s).din = s.din ∧ (engineStep s).w = s.w ∧ (engineStep s).rdata = s.rdata := by
  unfold engineStep
  split <;> simp [completeKey, completeEnc, completeDec, completeWipe, completeGsub]

/-- The engine does not read the turns still to come. -/
theorem engineStep_setInputs (l : List Event) (s : State) :
    engineStep (s.setInputs l) = (engineStep s).setInputs l := by
  cases s with
  | mk inflight => cases inflight <;> rfl

/-- The engine does not read the output signal. -/
theorem engineStep_setRdata (v : Word) (s : State) :
    engineStep (s.setRdata v) = (engineStep s).setRdata v := by
  cases s with
  | mk inflight => cases inflight <;> rfl

/-! ### Slots -/

theorem slotAt_index (r : PortReg) : slotAt r.index = some r := by
  cases r with
  | id j => revert j; decide
  | status => decide
  | cmd => decide
  | key j => revert j; decide
  | din j => revert j; decide
  | dout j => revert j; decide

theorem slotAt_cmd_iff (idx : BitVec 6) : slotAt idx = some .cmd ↔ idx = 4 := by
  revert idx; decide

/-- A write outside CMD stores at most one key or block word. -/
theorem portWrite_cases {idx : BitVec 6} {v : Word} {s t : State} (h : portWrite idx v s = .next t) :
    t = s ∨ (∃ j, t = s.setKeyWord j v) ∨ (∃ j, t = s.setDinWord j v) ∨
      idx = 4 ∧ writeCmd v s = .next t := by
  unfold portWrite at h
  split at h
  · next r hr =>
    cases r with
    | id j => cases h; exact .inl rfl
    | status => cases h; exact .inl rfl
    | cmd => exact .inr (.inr (.inr ⟨(slotAt_cmd_iff idx).mp hr, h⟩))
    | key j => cases h; exact .inr (.inl ⟨j, rfl⟩)
    | din j => cases h; exact .inr (.inr (.inl ⟨j, rfl⟩))
    | dout j => cases h; exact .inl rfl
  · cases h; exact .inl rfl

/-- A port write always answers a next state. -/
theorem portWrite_next (idx : BitVec 6) (v : Word) (s : State) : ∃ t, portWrite idx v s = .next t := by
  unfold portWrite
  split
  · next r _ =>
    cases r with
    | cmd => exact ⟨_, writeCmd_eq_accept v s⟩
    | _ => exact ⟨_, rfl⟩
  · exact ⟨_, rfl⟩

end Sys2Proof.Machine
end

