-- ==== Sys2Proof/Laws/PerInstr.lean ====
section
/-! SUPPORT. Statements made per command: a command's word leaves the reserved fields 0, carries its opcode, and has
LEN 0 unless it is KEY (30_encoding R80, R81). -/

namespace Sys2Proof.Laws.EncodingFits

/-- The opcode of a command (R81). -/
def opcodeOf : Instr → BitVec 4
  | .nop => 0x0
  | .key _ => 0x1
  | .enc => 0x2
  | .dec => 0x3
  | .wipe => 0x4
  | .gsub => 0x5

/-- The LEN field of a command's word. -/
def lenOf : Instr → BitVec 8
  | .key len => BitVec.ofNat 8 len
  | .nop => 0
  | .enc => 0
  | .dec => 0
  | .wipe => 0
  | .gsub => 0

/-- Every field of a command's word. -/
def Statement (i : Instr) : Prop :=
  opField (encode i) = opcodeOf i ∧ lenField (encode i) = lenOf i ∧ res0Field (encode i) = 0 ∧
    res1Field (encode i) = 0

theorem opField_commandWord (op : BitVec 4) (len : BitVec 8) : opField (commandWord op len) = op := by
  apply BitVec.eq_of_getLsbD_eq
  intro i hi
  interval_cases i <;> simp [opField, commandWord]

theorem lenField_commandWord (op : BitVec 4) (len : BitVec 8) : lenField (commandWord op len) = len := by
  apply BitVec.eq_of_getLsbD_eq
  intro i hi
  interval_cases i <;> simp [lenField, commandWord]

theorem res0Field_commandWord (op : BitVec 4) (len : BitVec 8) : res0Field (commandWord op len) = 0 := by
  apply BitVec.eq_of_getLsbD_eq
  intro i hi
  interval_cases i <;> simp [res0Field, commandWord]

theorem res1Field_commandWord (op : BitVec 4) (len : BitVec 8) : res1Field (commandWord op len) = 0 := by
  apply BitVec.eq_of_getLsbD_eq
  intro i hi
  interval_cases i <;> simp [res1Field, commandWord]

theorem of_commandWord {i : Instr} (h : encode i = commandWord (opcodeOf i) (lenOf i)) : Statement i := by
  unfold Statement
  rw [h]
  exact ⟨opField_commandWord _ _, lenField_commandWord _ _, res0Field_commandWord _ _, res1Field_commandWord _ _⟩

theorem nop : Statement .nop := of_commandWord rfl
theorem key (len : Nat) : Statement (.key len) := of_commandWord rfl
theorem enc : Statement .enc := of_commandWord rfl
theorem dec : Statement .dec := of_commandWord rfl
theorem wipe : Statement .wipe := of_commandWord rfl
theorem gsub : Statement .gsub := of_commandWord rfl

end Sys2Proof.Laws.EncodingFits
end

