-- ==== Sys2Proof/Laws/Step.lean ====
section
/-! SUPPORT. What one step of the machine can do, once; later proofs cite `step_cases` and unfold nothing. -/

namespace Sys2Proof.Machine

/-- The effects a turn can have on the state in which it is taken, each with the turn that has it (10_state R37,
20_memory R55, 44_commands R180, R181, 70_reset R251). -/
inductive TurnEffect (e : Event) (s : State) : State → Prop where
  | engine (h : e = .engine) : TurnEffect e s (engineStep s)
  | reset (h : e.resets = true) : TurnEffect e s (resetCore s)
  | shows (v : Word) : TurnEffect e s (s.setRdata v)
  | writesKey (j : Fin 4) (v : Word) (h : e.Writes (.key j) v) : TurnEffect e s ((s.setRdata 0).setKeyWord j v)
  | writesDin (j : Fin 4) (v : Word) (h : e.Writes (.din j) v) : TurnEffect e s ((s.setRdata 0).setDinWord j v)
  | command (v : Word) (t : State) (hw : e.Writes .cmd v) (h : writeCmd v (s.setRdata 0) = .next t) :
      TurnEffect e s t

/-- A write of slot `idx` has the effect of a write of the register there, or none. -/
theorem portWrite_effect {e : Event} {idx : BitVec 6} {v : Word} {s t : State} (he : e.slotWritten = some (idx, v))
    (h : portWrite idx v (s.setRdata 0) = .next t) : TurnEffect e s t := by
  unfold portWrite at h
  cases hr : slotAt idx with
  | none => rw [hr] at h; cases h; exact .shows 0
  | some r =>
    rw [hr] at h
    cases r with
    | id j => cases h; exact .shows 0
    | status => cases h; exact .shows 0
    | cmd => exact .command v t ⟨idx, he, hr⟩ h
    | key j => cases h; exact .writesKey j v ⟨idx, he, hr⟩
    | din j => cases h; exact .writesDin j v ⟨idx, he, hr⟩
    | dout j => cases h; exact .shows 0

theorem portCycle_write (idx : BitVec 6) (v : Word) (s : State) :
    portCycle (Signals.write idx v) s = portWrite idx v (s.setRdata 0) := by simp [portCycle, Signals.write]

theorem portCycle_read (idx : BitVec 6) (s : State) :
    portCycle (Signals.read idx) s = .next (s.setRdata (portRead idx s)) := by simp [portCycle, Signals.read]

theorem portCycle_idle (s : State) : portCycle Signals.idle s = .next (s.setRdata 0) := by
  simp [portCycle, Signals.idle]

theorem runEvent_cases {e : Event} {s t : State} (h : runEvent e s = .next t) : TurnEffect e s t := by
  cases e with
  | cycle sig =>
    simp only [runEvent, portCycle] at h
    split_ifs at h with hb hr hw hd
    · cases h; exact .reset (by cases h1 : sig.rdEn <;> cases h2 : sig.wrEn <;> simp_all [Event.resets])
    · exact portWrite_effect (by simp_all [Event.slotWritten]) h
    · cases h; exact .shows _
    · cases h; exact .shows 0
  | busRead addr size =>
    simp only [runEvent, busAccess] at h
    split at h
    · rw [portCycle_idle] at h; cases h; exact .shows 0
    · rw [portCycle_read] at h; cases h; exact .shows _
    · cases h
  | busWrite addr bytes =>
    simp only [runEvent, busAccess] at h
    split at h
    · rw [portCycle_idle] at h; cases h; exact .shows 0
    · next idx hidx =>
      rw [portCycle_write] at h
      exact portWrite_effect (by simp [Event.slotWritten, hidx]) h
    · cases h
  | engine => cases h; exact .engine rfl

@[simp] theorem step_nil {s : State} (h : s.inputs = []) : step s = .next (engineStep s) := by simp [step, h]

theorem step_cons {s : State} {e : Event} {rest : List Event} (h : s.inputs = e :: rest) :
    step s = runEvent e (s.setInputs rest) := by simp [step, h]

/-- One step: the engine completes when no turn is left, or the oldest turn has one of its effects. -/
theorem step_cases {s t : State} (h : step s = .next t) :
    (s.inputs = [] ∧ t = engineStep s) ∨
      ∃ e rest, s.inputs = e :: rest ∧ TurnEffect e (s.setInputs rest) t := by
  unfold step at h
  split at h
  · next h0 => cases h; exact .inl ⟨h0, rfl⟩
  · next e rest h0 => exact .inr ⟨e, rest, h0, runEvent_cases h⟩

/-- A turn leaves the turns after it as they are. -/
theorem TurnEffect.inputs_eq {e : Event} {s t : State} (h : TurnEffect e s t) : t.inputs = s.inputs := by
  cases h with
  | engine _ => simp
  | reset _ => simp
  | shows v => simp
  | writesKey j v _ => simp
  | writesDin j v _ => simp
  | command v _ _ h => simpa using (writeCmd_frame h).2.2.2.2

/-- A port cycle without both enables has a next state. -/
theorem portCycle_next {sig : Signals} (s : State) (h : ¬(sig.rdEn = true ∧ sig.wrEn = true)) :
    ∃ t, portCycle sig s = .next t := by
  unfold portCycle
  rw [if_neg h]
  split
  · exact ⟨_, rfl⟩
  split
  · exact portWrite_next _ _ _
  split
  · exact ⟨_, rfl⟩
  · exact ⟨_, rfl⟩

/-- A cycle is refused only for both enables. -/
theorem portCycle_refused {sig : Signals} {s : State} {r : Refusal} (h : portCycle sig s = .refused r) :
    r = .bothEnables ∧ sig.rdEn = true ∧ sig.wrEn = true := by
  by_cases hb : sig.rdEn = true ∧ sig.wrEn = true
  · unfold portCycle at h
    rw [if_pos hb] at h
    cases h
    exact ⟨rfl, hb⟩
  · obtain ⟨t, ht⟩ := portCycle_next s hb
    rw [ht] at h
    cases h

/-- A turn has a next state exactly when the host keeps its duties in it (70_reset R253, R264). -/
theorem runEvent_next_iff (e : Event) (s : State) : (∃ t, runEvent e s = .next t) ↔ e.admitted = true := by
  have bus : ∀ addr size (sig : BitVec 6 → Signals), (∀ idx, ¬((sig idx).rdEn = true ∧ (sig idx).wrEn = true)) →
      ((∃ t, busAccess Config.seedBase addr size sig s = .next t) ↔
        decide (busTarget Config.seedBase addr size ≠ .misfit) = true) := by
    intro addr size sig hsig
    unfold busAccess
    cases hb : busTarget Config.seedBase addr size with
    | elsewhere => simpa using portCycle_next s (sig := Signals.idle) (by decide)
    | slot idx => simpa using portCycle_next s (hsig idx)
    | misfit => simp
  cases e with
  | cycle sig =>
    by_cases hb : sig.rdEn = true ∧ sig.wrEn = true
    · simp [runEvent, portCycle, hb, Event.admitted]
    · have := portCycle_next s hb
      simp only [runEvent, Event.admitted]
      exact ⟨fun _ => by simpa [← Bool.not_eq_true, ← not_and_or] using hb, fun _ => this⟩
  | busRead addr size => exact bus addr size _ (by simp [Signals.read])
  | busWrite addr bytes => exact bus addr bytes.length _ (by simp [Signals.write])
  | engine => simp [runEvent, Event.admitted]

end Sys2Proof.Machine
end

