-- ==== Sys2Proof/Tests/Slice0.lean ====
section
/-! SUPPORT. The model's own tests, expected results from spec/95_test_vectors.md and the worked examples of the
rules, and for each statement with hypotheses a concrete state and operands that meet them. -/

namespace Sys2Proof.Tests

open Sys2Proof Sys2Proof.Machine Sys2Proof.Claims

/-! ### WellFormed (30_encoding R82: lengths of 256 or more cannot be expressed) -/

theorem test_wf_key_256_refused : (Instr.key 256).wf = false := by decide
theorem test_wf_key_255_accepted : (Instr.key 255).wf = true := by decide

/-! ### Decoding: words written from the encodings of opcode_table.json, and 95_test_vectors 2.6 -/

theorem test_decode_nop : decode 0b00000000000000000000000000000000 = .instr .nop := by decide
theorem test_decode_key_16 : decode 0b00000000000000000001000000000001 = .instr (.key 16) := by decide
theorem test_decode_key_255 : decode 0b00000000000000001111111100000001 = .instr (.key 255) := by decide
theorem test_decode_enc : decode 0b00000000000000000000000000000010 = .instr .enc := by decide
theorem test_decode_dec : decode 0b00000000000000000000000000000011 = .instr .dec := by decide
theorem test_decode_wipe : decode 0b00000000000000000000000000000100 = .instr .wipe := by decide
theorem test_decode_gsub : decode 0b00000000000000000000000000000101 = .instr .gsub := by decide
theorem test_decode_reserved_opcodes :
    decode 0x00000006 = .illegal .reservedOpcode ∧ decode 0x0000000F = .illegal .reservedOpcode := by decide
theorem test_decode_len_outside_key :
    decode 0x00001002 = .illegal .lenOutsideKey ∧ decode 0x00000100 = .illegal .lenOutsideKey := by decide
theorem test_decode_reserved_bits :
    decode 0x00000012 = .illegal .reservedBits ∧ decode 0x00000F11 = .illegal .reservedBits ∧
    decode 0x00010002 = .illegal .reservedBits ∧ decode 0x80000000 = .illegal .reservedBits := by decide
theorem test_encode_words :
    encode (.key 15) = 0x00000F01 ∧ encode (.key 16) = 0x00001001 ∧ encode .gsub = 0x00000005 := by decide

/-! ### Small states -/

/-- STATUS 0x06: a schedule from the zero key, the last command done. -/
def keyed : State := { State.reset with keyv := true, done := true, rk := derive (List.replicate 16 0) }

/-- A command in flight. -/
def inFlight (op : Inflight) : State := { State.reset with inflight := op }

/-- The STATUS word after a step that answers a next state. -/
def statusAfter : Host.Outcome State Fault Refusal → Option Word
  | .next t => some (statusWord t)
  | .fault _ => none
  | .refused _ => none

/-- The same after the completion of what the step started. -/
def statusDone : Host.Outcome State Fault Refusal → Option Word
  | .next t => some (statusWord (engineStep t))
  | .fault _ => none
  | .refused _ => none

/-- DOUT after the completion of what the step started. -/
def doutDone : Host.Outcome State Fault Refusal → Option Quad
  | .next t => some (engineStep t).dout
  | .fault _ => none
  | .refused _ => none

/-! ### Commands and STATUS (95_test_vectors 2.7, and the examples of 44_commands) -/

theorem test_nop_clears_report :
    statusAfter (exec .nop { State.reset with err := 1, keyv := true, done := true }) = some 0x04 := by decide
theorem test_nop_clears_overrun :
    statusAfter (exec .nop { State.reset with ovr := true, keyv := true, done := true }) = some 0x04 := by decide
theorem test_key_wrong_length : statusAfter (exec (.key 15) keyed) = some 0x16 := by decide +kernel
theorem test_key_completes :
    statusAfter (exec (.key 16) keyed) = some 0x01 ∧ statusDone (exec (.key 16) keyed) = some 0x06 := by
  decide +kernel
theorem test_enc_without_key : statusAfter (exec .enc State.reset) = some 0x22 := by decide
theorem test_enc_b1 :
    doutDone (exec .enc { keyed with din := ⟨0x00010203, 0x04050607, 0x08090A0B, 0x0C0D0E0F⟩ })
      = some ⟨0x5EBAC6E0, 0x054E1668, 0x19AFF1CC, 0x6D346CDB⟩ := by decide +kernel
theorem test_dec_dropped_while_busy : statusAfter (exec .dec { inFlight .enc with keyv := true }) = some 0x0D := by
  decide
theorem test_dec_b1_plaintext :
    doutDone (exec .dec { keyed with din := ⟨0x00010203, 0x04050607, 0x08090A0B, 0x0C0D0E0F⟩ })
      = some ⟨0x1563DD9D, 0x54B6BD2E, 0xAEF671C1, 0x11766002⟩ := by decide +kernel
theorem test_wipe :
    statusAfter (exec .wipe keyed) = some 0x01 ∧ statusDone (exec .wipe keyed) = some 0x02 := by decide +kernel
theorem test_gsub :
    doutDone (exec .gsub { State.reset with din := ⟨0x01234567, 1, 2, 3⟩ }) = some ⟨0x27E4246B, 0, 0, 0⟩ := by
  decide +kernel
theorem test_gsub_keeps_w :
    exec .gsub { State.reset with din := ⟨0x01234567, 0, 0, 0⟩, w := ⟨9, 0x88641FB9, 0xA4E9A5CC, 0x2F131C7D⟩ }
      = .next { State.reset with
        din := ⟨0x01234567, 0, 0, 0⟩, w := ⟨0x01234567, 0x88641FB9, 0xA4E9A5CC, 0x2F131C7D⟩,
        inflight := .gsub } := rfl
theorem test_illegal : statusAfter (writeCmd 0xFFFFFFFF keyed) = some 0x36 := by decide +kernel
theorem test_illegal_dropped_while_busy : statusAfter (writeCmd 0x00000006 (inFlight .key)) = some 0x09 := by decide

/-! ### Datapath (40_substitution R103, R104; 95_test_vectors 2.1 to 2.5 and 3) -/

theorem test_ss_45 :
    SS0 0x45 = 0x3686B2B4 ∧ SS1 0x45 = 0x64274763 ∧ SS2 0x45 = 0xB2B43686 ∧ SS3 0x45 = 0x47636427 := by
  decide +kernel
theorem test_g_bytes :
    G 0x00000000 = 0xB829B829 ∧ G 0x00000100 = 0x683978F9 ∧ G 0x01000000 = 0x78F96839 ∧
    G 0xDEADBEEF = 0xC407179A := by decide +kernel
theorem test_f_example :
    F 0x08090A0B 0x0C0D0E0F 0x7C8F8C7E 0xC737A22C = ⟨0x8080BE54, 0xC0EF8C18⟩ := by decide +kernel
theorem test_key_words_round_15 :
    keyWordsAt 15 ⟨0x00010203, 0x04050607, 0x08090A0B, 0x0C0D0E0F⟩
      = ⟨0x00010203, 0x04050607, 0x0F08090A, 0x0B0C0D0E⟩ := by decide +kernel
theorem test_schedule_b4 :
    let rk := derive (quadBytes ⟨0x28DBC3BC, 0x49FFD87D, 0xCFA509B1, 0x1D422BE7⟩)
    rk[0] = 0xB2B11B63 ∧ rk[1] = 0x2EE9E2D1 ∧ rk[2] = 0x11967260 ∧ rk[15] = 0x2F22338E ∧ rk[31] = 0x90724A6E := by
  decide +kernel
theorem test_encrypt_b3 :
    encrypt (derive (quadBytes ⟨0x47064808, 0x51E61BE8, 0x5D74BFB3, 0xFD956185⟩))
      ⟨0x83A2F8A2, 0x88641FB9, 0xA4E9A5CC, 0x2F131C7D⟩
      = ⟨0xEE54D13E, 0xBCAE706D, 0x226BC314, 0x2CD40D4A⟩ := by decide +kernel
theorem test_decrypt_b4 :
    decrypt (derive (quadBytes ⟨0x28DBC3BC, 0x49FFD87D, 0xCFA509B1, 0x1D422BE7⟩))
      ⟨0x9B9B7BFC, 0xD1813CB9, 0x5D0B3618, 0xF40F5122⟩
      = ⟨0xB41E6BE2, 0xEBA84A14, 0x8E2EED84, 0x593C5EC7⟩ := by decide +kernel

/-! ### Port, reset and the step (95_test_vectors 2.8, 70_reset R252, R253) -/

theorem test_read_identity :
    portRead 0 State.reset = 0x4B495341 ∧ portRead 1 State.reset = 0x2D534545 ∧
    portRead 2 State.reset = 0x44000000 ∧ portRead 63 State.reset = 0 := by decide
theorem test_write_key_reads_zero :
    portWrite 8 0x12345678 State.reset = .next { State.reset with key := ⟨0x12345678, 0, 0, 0⟩ } ∧
    portRead 8 { State.reset with key := ⟨0x12345678, 0, 0, 0⟩ } = 0 := ⟨rfl, by decide⟩
theorem test_write_din3 :
    portWrite 15 0xDEADBEEF State.reset = .next { State.reset with din := ⟨0, 0, 0, 0xDEADBEEF⟩ } ∧
    portRead 15 { State.reset with din := ⟨0, 0, 0, 0xDEADBEEF⟩ } = 0xDEADBEEF := ⟨rfl, by decide⟩
theorem test_write_read_only_ignored :
    portWrite 3 0xFF State.reset = .next State.reset ∧ portWrite 16 1 State.reset = .next State.reset :=
  ⟨rfl, rfl⟩
theorem test_read_cycle_shows_status :
    step { State.reset with done := true, inputs := [rd .status] } = .next { State.reset with
      done := true, rdata := 2 } := rfl
theorem test_reset_aborts_key :
    step { inFlight .key with key := ⟨1, 2, 3, 4⟩, inputs := [rstEdge, .engine] }
      = .next { State.reset with inputs := [.engine] } := rfl
theorem test_both_enables_refused :
    step { State.reset with inputs := [.cycle ⟨false, true, true, 0, 0⟩] } = .refused .bothEnables := rfl
theorem test_engine_completes_when_host_is_done :
    step (inFlight .wipe) = .next { State.reset with done := true } := rfl
theorem test_fetch_word_runs_enc :
    step (State.reset.withFetchWord 32 2) = .next { State.reset with done := true, err := 2 } := rfl
theorem test_fetch_word_runs_key :
    step (State.reset.withFetchWord 32 0x1001) = .next (inFlight .key) := rfl
theorem test_table_word : decodeTableWord 32 0x1001 = some (.key 16) ∧ decodeTableWord 32 6 = none := by decide
theorem test_setblk_writes_din :
    setblk ⟨1, 2, 3, 4⟩ = [wr (.din 0) 1, wr (.din 1) 2, wr (.din 2) 3, wr (.din 3) 4] ∧
    wr .cmd 0x00000F01 = command (.key 15) := by decide
theorem test_bus_big_endian_word : busWord (Equiv.swap 0 3 * Equiv.swap 1 2) [0x12, 0x34, 0x56, 0x78] = 0x12345678 := by
  decide +kernel

/-! ### Witnesses: a state and operands that meet the hypotheses of each statement, clause by clause -/

theorem witness_ResetTakesTheResetState :
    ∃ (s : State) (sig : Signals) (rest : List Event), s.inflight = .enc ∧ s.inputs = .cycle sig :: rest ∧
      sig.rst = true ∧ ¬(sig.rdEn = true ∧ sig.wrEn = true) :=
  ⟨{ inFlight .enc with inputs := [rstEdge] }, Signals.reset, [], by decide⟩

theorem witness_IsReset : IsReset { State.reset with inputs := [.engine] } := rfl

theorem witness_small_slot : ∃ idx : BitVec 6, idx.toNat < 3 := ⟨2, by decide⟩

theorem witness_slots :
    (∃ (idx : BitVec 6) (j : Fin 4), idx.toNat = 8 + j.val) ∧ (∃ (idx : BitVec 6) (j : Fin 4), idx.toNat = 12 + j.val) ∧
    (∃ (idx : BitVec 6) (j : Fin 4), idx.toNat = 16 + j.val) ∧ (∃ idx : BitVec 6, 5 ≤ idx.toNat ∧ idx.toNat ≤ 7) ∧
    (∃ idx : BitVec 6, 20 ≤ idx.toNat) ∧ (∃ idx : BitVec 6, idx ≠ 4) :=
  ⟨⟨11, 3, by decide⟩, ⟨15, 3, by decide⟩, ⟨19, 3, by decide⟩, ⟨7, by decide⟩, ⟨63, by decide⟩, ⟨8, by decide⟩⟩

theorem witness_fixed_slots :
    ∀ n : Fin 5, ∃ idx : BitVec 6, idx.toNat = n.val := by decide

theorem witness_BusAccess_slot : ∃ (base : Nat) (bytes : List Byte), base % 4 = 0 ∧ bytes.length = 4 :=
  ⟨0x1000, [1, 2, 3, 4], by decide⟩

theorem witness_BusAccess_misfit :
    (∃ base addr size : Nat, addr < base + 256 ∧ base < addr + size ∧ size ≠ 4) ∧
    (∃ base addr size : Nat, addr < base + 256 ∧ base < addr + size ∧ addr % 4 ≠ 0) ∧
    (∃ base addr size : Nat, addr < base + 256 ∧ base < addr + size ∧ size = 4 ∧ addr % 4 = 0 ∧ base % 4 ≠ 0) :=
  ⟨⟨0x1000, 0x10FF, 1, by decide⟩, ⟨0x1000, 0xFFE, 4, by decide⟩, ⟨0x1002, 0x1000, 4, by decide⟩⟩

theorem witness_BusAccess_elsewhere :
    (∃ base addr size : Nat, addr + size ≤ base) ∧ (∃ base addr : Nat, base + 256 ≤ addr) :=
  ⟨⟨0x1000, 0xFFC, 4, by decide⟩, ⟨0x1000, 0x1100, by decide⟩⟩

theorem witness_DecodeFollowsTheFormat :
    (∃ w : Word, w.extractLsb' 16 16 ≠ 0) ∧ (∃ w : Word, w.extractLsb' 4 4 ≠ 0) ∧
    (∃ w : Word, w.extractLsb' 16 16 = 0 ∧ w.extractLsb' 4 4 = 0 ∧ w.extractLsb' 0 4 = 1) ∧
    (∃ w : Word, w.extractLsb' 16 16 = 0 ∧ w.extractLsb' 4 4 = 0 ∧ w.extractLsb' 0 4 ≠ 1 ∧ w.extractLsb' 8 8 ≠ 0) ∧
    (∀ op : BitVec 4, ∃ w : Word, w.extractLsb' 16 16 = 0 ∧ w.extractLsb' 4 4 = 0 ∧ w.extractLsb' 8 8 = 0 ∧
      w.extractLsb' 0 4 = op) :=
  ⟨⟨0x10000, by decide⟩, ⟨0x10, by decide⟩, ⟨0xFF01, by decide⟩, ⟨0x100, by decide⟩,
    fun op => ⟨op.setWidth 32, by revert op; decide⟩⟩

theorem witness_DecodeOfEncode : (Instr.key 255).wf = true ∧ Instr.nop.wf = true := by decide

theorem witness_EncodeOfDecode : ∃ (w : Word) (i : Instr), decode w = .instr i := ⟨0xFF01, .key 255, by decide⟩

theorem witness_CmdWriteRunsTheDecodedCommand :
    (∃ (s : State) (v : Word) (rest : List Event) (i : Instr),
      s.inputs = .cycle ⟨false, false, true, 4, v⟩ :: rest ∧ decode v = .instr i) ∧
    (∃ (s : State) (v : Word) (rest : List Event) (why : IllegalWord),
      s.inputs = .cycle ⟨false, false, true, 4, v⟩ :: rest ∧ decode v = .illegal why) :=
  ⟨⟨State.reset.withFetchWord 32 0xFF01, 0xFF01, [], .key 255, by decide⟩,
    ⟨State.reset.withFetchWord 32 6, 6, [], .reservedOpcode, by decide⟩⟩

/-- Idle without a key, idle with a key, idle with a reported error, and busy with each command: the hypotheses of
the command statements. -/
theorem witness_command_states :
    (State.reset.inflight = .none ∧ State.reset.keyv = false) ∧ (keyed.inflight = .none ∧ keyed.keyv = true) ∧
    statusWord { State.reset with err := 1, keyv := true, done := true } = 0x16 ∧
    (∀ op : Inflight, op ≠ .none → (inFlight op).inflight ≠ .none) := by
  refine ⟨by decide, by decide +kernel, by decide, fun op h => h⟩

theorem witness_key_statements :
    State.reset.key = ⟨0, 0, 0, 0⟩ ∧ (15 : Nat) ≠ 16 ∧ (15 : Nat) < 256 ∧ (inFlight .key).inflight = .key := by decide

theorem witness_transform_examples :
    (∃ s : State, s.inflight = .none ∧ s.keyv = true ∧ s.rk = derive (List.replicate 16 0) ∧
      s.din = ⟨0x00010203, 0x04050607, 0x08090A0B, 0x0C0D0E0F⟩) ∧
    (∃ s : State, s.inflight = .none ∧ s.keyv = true ∧ s.rk = derive (List.replicate 16 0) ∧
      s.din = ⟨0x5EBAC6E0, 0x054E1668, 0x19AFF1CC, 0x6D346CDB⟩) :=
  ⟨⟨{ keyed with din := ⟨0x00010203, 0x04050607, 0x08090A0B, 0x0C0D0E0F⟩ }, rfl, rfl, rfl, rfl⟩,
    ⟨{ keyed with din := ⟨0x5EBAC6E0, 0x054E1668, 0x19AFF1CC, 0x6D346CDB⟩ }, rfl, rfl, rfl, rfl⟩⟩

theorem witness_gsub_example : ∃ s : State, s.inflight = .none ∧ s.din.w0 = 0x01234567 :=
  ⟨{ State.reset with din := ⟨0x01234567, 0, 0, 0⟩ }, by decide⟩

theorem witness_illegal_word : ∃ v : Word, ∃ why, decode v = .illegal why := ⟨0x80000000, .reservedBits, by decide⟩

theorem witness_CommandSteps_accepted :
    ∃ (s t : State) (v : Word), s.inflight = .none ∧ writeCmd v s = .next t ∧ t.err = 0 ∧ t.inflight = .key :=
  ⟨State.reset, _, 0x1001, rfl, rfl, rfl, rfl⟩

theorem witness_error_at_acceptance :
    ∃ (s t : State) (v : Word), s.inflight = .none ∧ writeCmd v s = .next t ∧ t.err ≠ 0 :=
  ⟨State.reset, _, 0x2, rfl, rfl, by decide⟩

theorem witness_both_orders :
    (∃ (s : State) (v : Word) (rest : List Event), s.inflight ≠ .none ∧ s.inputs = .engine :: cmdEvent v :: rest) ∧
    (∃ (s : State) (v : Word) (rest : List Event), s.inflight ≠ .none ∧ s.inputs = cmdEvent v :: .engine :: rest) :=
  ⟨⟨{ inFlight .enc with inputs := [.engine, cmdEvent 3] }, 3, [], by decide⟩,
    ⟨{ inFlight .enc with inputs := [cmdEvent 3, .engine] }, 3, [], by decide⟩⟩

theorem witness_overrun_cleared_by_command :
    ∃ s t : State, step s = .next t ∧ s.ovr = true ∧ t.ovr = false ∧ s.inflight = .none :=
  ⟨{ State.reset with ovr := true, inputs := [cmdEvent 0] }, _, rfl, rfl, rfl, rfl⟩

theorem witness_overrun_set : ∃ s t : State, step s = .next t ∧ s.ovr = false ∧ t.ovr = true :=
  ⟨{ inFlight .gsub with inputs := [cmdEvent 0] }, _, rfl, rfl, rfl⟩

theorem witness_report_holds :
    ∃ s t : State, step s = .next t ∧ s.inflight = .none ∧ s.done = true ∧ t.done = true :=
  ⟨{ State.reset with done := true, inputs := [rd .status] }, _, rfl, rfl, rfl, rfl⟩

theorem witness_round_keys_change : ∃ s t : State, step s = .next t ∧ t.rk ≠ s.rk :=
  ⟨inFlight .key, _, rfl, by decide +kernel⟩

theorem witness_keyv_set : ∃ s t : State, step s = .next t ∧ s.keyv = false ∧ t.keyv = true :=
  ⟨inFlight .key, _, rfl, rfl, rfl⟩

theorem witness_keyv_cleared : ∃ s t : State, step s = .next t ∧ s.keyv = true ∧ t.keyv = false :=
  ⟨{ State.reset with keyv := true, inputs := [cmdEvent 4] }, _, rfl, rfl, rfl⟩

theorem witness_key_registers_change :
    (∃ s t : State, step s = .next t ∧ t.key ≠ s.key ∧ t.inflight = .none) ∧
    (∃ s t : State, step s = .next t ∧ t.key ≠ s.key ∧ t.inflight = .key) :=
  ⟨⟨{ State.reset with inputs := [wr (.key 3) 7] }, _, rfl, by decide, rfl⟩,
    ⟨{ State.reset with key := ⟨1, 0, 0, 0⟩, inputs := [cmdEvent 0x1001] }, _, rfl, by decide, rfl⟩⟩

theorem witness_block_registers_change :
    (∃ s t : State, step s = .next t ∧ t.din ≠ s.din) ∧ (∃ s t : State, step s = .next t ∧ t.dout ≠ s.dout) :=
  ⟨⟨{ State.reset with inputs := [wr (.din 0) 7] }, _, rfl, by decide⟩, ⟨inFlight .gsub, _, rfl, by decide +kernel⟩⟩

theorem witness_host_writes :
    HostWrites { State.reset with inputs := [wr (.key 3) 7] } State.reset (.key 3) 7 ∧
    HostWrites { State.reset with inputs := [wr (.din 0) 7] } State.reset (.din 0) 7 ∧
    HostWrites { State.reset with inputs := [cmdEvent 2] } State.reset .cmd 2 ∧
    ResetTurn { inFlight .enc with inputs := [rstEdge] } State.reset ∧
    EngineTurn (inFlight .gsub) (engineStep (inFlight .gsub)) :=
  ⟨⟨_, rfl, 11, rfl, by decide⟩, ⟨_, rfl, 12, rfl, by decide⟩, ⟨_, rfl, 4, rfl, by decide⟩,
    ⟨⟨_, rfl, rfl⟩, rfl⟩, .inr ⟨rfl, rfl⟩, rfl⟩

theorem witness_becomes_busy : ∃ s t : State, step s = .next t ∧ s.inflight = .none ∧ t.inflight ≠ .none :=
  ⟨{ State.reset with inputs := [cmdEvent 5] }, _, rfl, rfl, by decide⟩

theorem witness_stays_busy : ∃ s t : State, step s = .next t ∧ s.inflight ≠ .none ∧ t.inflight = s.inflight :=
  ⟨{ inFlight .enc with inputs := [wr (.din 0) 7] }, _, rfl, by decide, rfl⟩

theorem witness_any_turn :
    ∀ e : Event, ∃ (s : State) (rest : List Event), s.inflight = .enc ∧ s.inputs = e :: rest :=
  fun e => ⟨{ inFlight .enc with inputs := [e] }, [], rfl, rfl⟩

theorem witness_no_turn : ∃ s : State, s.inflight = .key ∧ s.inputs = [] := ⟨inFlight .key, rfl, rfl⟩

theorem witness_engine_turn :
    (∃ (s : State) (rest : List Event), s.inputs = .engine :: rest) ∧
    (∃ (s t : State) (idx : BitVec 6) (v : Word), idx ≠ 4 ∧ s.inflight = .enc ∧ portWrite idx v s = .next t) :=
  ⟨⟨{ inFlight .enc with inputs := [.engine] }, [], rfl⟩, ⟨inFlight .enc, _, 12, 7, by decide, rfl, rfl⟩⟩

theorem witness_broken_duty :
    ∃ (s : State) (sig : Signals) (rest : List Event), s.inputs = .cycle sig :: rest ∧ sig.rdEn = true ∧
      sig.wrEn = true ∧ step s = .refused .bothEnables :=
  ⟨{ State.reset with inputs := [.cycle ⟨false, true, true, 0, 0⟩] }, ⟨false, true, true, 0, 0⟩, [], rfl, rfl, rfl, rfl⟩

/-- A bus access that breaks a duty, whatever SEED_BASE is: one byte of slot 0. -/
theorem witness_refused_bus_access :
    ∃ s : State, s.inputs = [.busRead Config.seedBase 1] ∧ step s = .refused .narrowOrMisaligned :=
  ⟨{ State.reset with inputs := [.busRead Config.seedBase 1] }, rfl,
    by simp [step, runEvent, busAccess, busTarget]⟩

theorem witness_key_material :
    ∃ s t : State, step s = .next t ∧ ¬(s.inflight = .none ∧ t.inflight = .key) ∧ t.inflight = .enc :=
  ⟨{ State.reset with keyv := true, inputs := [cmdEvent 2] }, _, rfl, by decide, rfl⟩

theorem witness_admitted_trace :
    admittedTrace { inFlight .enc with inputs := [cmdEvent 3, .engine, rstEdge, cmdEvent 5] } = true := by decide

theorem witness_unused_schedule :
    State.reset.keyv = false ∧ State.reset.inflight ≠ .enc ∧ State.reset.inflight ≠ .dec := by decide

theorem witness_state_inv_in_flight : StateInv { inFlight .wipe with ovr := true } := by
  constructor <;> simp [inFlight, State.reset]

theorem witness_state_inv_step : ∃ s t : State, StateInv s ∧ step s = .next t ∧ t ≠ s :=
  ⟨{ State.reset with inputs := [cmdEvent 0x1001] }, inFlight .key,
    by constructor <;> simp [State.reset], rfl, by decide⟩

theorem witness_round_key_pair :
    ∃ (rk rk' : RoundKeys) (o : Fin 31), rk ≠ rk' ∧ rk[o.val]'(by omega) = rk'[o.val]'(by omega) ∧
      rk[o.val + 1]'(by omega) = rk'[o.val + 1]'(by omega) :=
  ⟨Vector.replicate 32 0, (Vector.replicate 32 0).set 0 1, 30, by decide⟩

theorem witness_indices :
    (∃ n : Nat, 1 ≤ n ∧ n ≤ 16) ∧ (∃ i : Nat, 1 ≤ i ∧ i ≤ 15) ∧ (∃ i : Nat, i < 16) ∧ (∃ j : Nat, j < 4) ∧
    (∃ i : Nat, i % 2 = 0) ∧ (∃ i : Nat, i % 2 = 1) ∧ (∃ B : List Byte, B.length = 16) ∧ (∃ i : Nat, 8 ≤ i) :=
  ⟨⟨16, by decide⟩, ⟨15, by decide⟩, ⟨15, by decide⟩, ⟨3, by decide⟩, ⟨0, rfl⟩, ⟨15, rfl⟩,
    ⟨List.replicate 16 0xFF, by decide⟩, ⟨31, by decide⟩⟩

end Sys2Proof.Tests
end

/-! Byte strings of keys and blocks: where each byte of a word stands, and assembly and serialisation as inverses
(00_scope R7; 20_memory R56, R57). -/

namespace Sys2Proof.Machine

/-! ### One word -/

theorem unbe32_getElem? (w : Word) (m : Fin 4) :
    (unbe32 w)[m.val]? = some (w.extractLsb' (24 - 8 * m.val) 8) := by
  fin_cases m <;> rfl

@[simp] theorem unbe32_packBytes (b3 b2 b1 b0 : Byte) : unbe32 (packBytes b3 b2 b1 b0) = [b3, b2, b1, b0] := by
  simp [unbe32]

/-- Serialising word `j` of a byte string gives its bytes 4j to 4j+3, where the string has them. -/
theorem unbe32_be32 (B : List Byte) (j : Nat) (h : 4 * j + 4 ≤ B.length) :
    unbe32 (be32 B j) = (B.drop (4 * j)).take 4 := by
  have bytes : B.drop (4 * j) = B[4 * j] :: B[4 * j + 1] :: B[4 * j + 2] :: B[4 * j + 3] :: B.drop (4 * j + 4) := by
    simp only [← List.drop_eq_getElem_cons]
  rw [bytes]
  simp (disch := omega) only [be32, unbe32_packBytes, List.getD_eq_getElem, List.take_succ_cons, List.take_zero]

/-! ### Four words -/

/-- The byte string of four words holds word `j` at its bytes 4j to 4j+3. -/
theorem quadBytes_getElem? (q : Quad) (j m : Fin 4) :
    (quadBytes q)[4 * j.val + m.val]? = (unbe32 (wordAt q j))[m.val]? := by
  fin_cases j <;> fin_cases m <;> rfl

theorem be32_quadBytes (q : Quad) (j : Fin 4) : be32 (quadBytes q) j.val = wordAt q j := by
  rw [← packBytes_byteOf (wordAt q j)]
  fin_cases j <;> rfl

@[simp] theorem quadOfBytes_quadBytes (q : Quad) : quadOfBytes (quadBytes q) = q :=
  (Quad.mk.injEq ..).mpr ⟨be32_quadBytes q 0, be32_quadBytes q 1, be32_quadBytes q 2, be32_quadBytes q 3⟩

/-- Four words of four bytes each are the whole 16-byte string. -/
theorem quadBytes_quadOfBytes {B : List Byte} (h : B.length = 16) : quadBytes (quadOfBytes B) = B :=
  calc quadBytes (quadOfBytes B)
    _ = B.take 4 ++ (B.drop 4).take 4 ++ (B.drop 8).take 4 ++ (B.drop 12).take 4 := by
      simp [quadBytes, quadOfBytes, unbe32_be32, h]
    _ = B.take 16 := by rw [← List.take_add, ← List.take_add, ← List.take_add]
    _ = B := List.take_of_length_le h.le

/-- Settles O58: a byte is found in its word and then in the word's four bytes, and each direction of the inverse holds
word by word. -/
theorem keysAndBlocksAreBigEndian : Obligations.KeysAndBlocksAreBigEndian := by
  unfold Obligations.KeysAndBlocksAreBigEndian
  exact ⟨fun q j m => (quadBytes_getElem? q j m).trans (unbe32_getElem? (wordAt q j) m),
    quadOfBytes_quadBytes, fun _ => quadBytes_quadOfBytes⟩

end Sys2Proof.Machine

/-! What one turn does to the elements of the state (10_state R20 to R33): each element's writers, the invariant every
step keeps, and what a turn cannot read. -/

namespace Sys2Proof.Machine

open Sys2Proof.Claims

/-! ### The engine's step, element by element (44_commands R181, R184 to R192) -/

theorem engineStep_done (s : State) :
    (engineStep s).done = if s.inflight = .none then s.done else true := by
  cases h : s.inflight <;> simp [engineStep, h]

theorem engineStep_keyv (s : State) :
    (engineStep s).keyv = if s.inflight = .key then true else s.keyv := by
  cases h : s.inflight <;>
    simp [engineStep, h, completeKey, completeEnc, completeDec, completeWipe, completeGsub]

theorem engineStep_rk (s : State) :
    (engineStep s).rk =
      if s.inflight = .key then derive (quadBytes s.w)
      else if s.inflight = .wipe then Vector.replicate 32 0 else s.rk := by
  cases h : s.inflight <;>
    simp [engineStep, h, completeKey, completeEnc, completeDec, completeWipe, completeGsub]

theorem engineStep_dout (s : State) :
    (engineStep s).dout =
      if s.inflight = .enc then encrypt s.rk s.w
      else if s.inflight = .dec then decrypt s.rk s.w
      else if s.inflight = .gsub then ⟨G s.w.w0, 0, 0, 0⟩ else s.dout := by
  cases h : s.inflight <;>
    simp [engineStep, h, completeKey, completeEnc, completeDec, completeWipe, completeGsub]

theorem engineStep_ovr (s : State) : (engineStep s).ovr = s.ovr := by
  obtain ⟨-, hovr, -⟩ := engineStep_frame s
  exact hovr

theorem engineStep_keyRegisters (s : State) : (engineStep s).key = s.key := by
  obtain ⟨-, -, hkey, -⟩ := engineStep_frame s
  exact hkey

theorem engineStep_din (s : State) : (engineStep s).din = s.din := by
  obtain ⟨-, -, -, hdin, -⟩ := engineStep_frame s
  exact hdin

/-! ### The rule of an accepted word, element by element (44_commands R182 to R194) -/

/-- No rule touches the elements that acceptance leaves alone, nor OVR. -/
theorem ruleOf_frame (d : Decoded) (s : State) :
    (ruleOf d s).din = s.din ∧ (ruleOf d s).dout = s.dout ∧ (ruleOf d s).rk = s.rk ∧
      (ruleOf d s).rdata = s.rdata ∧ (ruleOf d s).inputs = s.inputs ∧ (ruleOf d s).ovr = s.ovr := by
  rcases ruleOf_cases d s with
    ⟨c, -, e⟩ | ⟨-, e⟩ | ⟨-, e⟩ | ⟨-, -, e⟩ | ⟨-, -, e⟩ | ⟨-, e⟩ | ⟨-, e⟩ <;> rw [e] <;> simp

theorem ruleOf_rk (d : Decoded) (s : State) : (ruleOf d s).rk = s.rk := by
  obtain ⟨-, -, hrk, -⟩ := ruleOf_frame d s
  exact hrk

theorem ruleOf_ovr (d : Decoded) (s : State) : (ruleOf d s).ovr = s.ovr := by
  obtain ⟨-, -, -, -, -, hovr⟩ := ruleOf_frame d s
  exact hovr

/-- KEYV after a rule: only KEY 16 and WIPE touch it, and they clear it (10_state R25). -/
theorem ruleOf_keyv (d : Decoded) (s : State) :
    (ruleOf d s).keyv = s.keyv ∨
      (ruleOf d s).keyv = false ∧
        (d = .instr (.key 16) ∧ (ruleOf d s).inflight = .key ∨ d = .instr .wipe ∧ (ruleOf d s).inflight = .wipe) := by
  rcases ruleOf_cases d s with
    ⟨c, -, e⟩ | ⟨-, e⟩ | ⟨hd, e⟩ | ⟨-, -, e⟩ | ⟨-, -, e⟩ | ⟨hd, e⟩ | ⟨-, e⟩ <;> rw [e] <;> simp [*]

/-- The key registers after a rule: only KEY 16 touches them, and moves them to W (10_state R29). -/
theorem ruleOf_key (d : Decoded) (s : State) :
    (ruleOf d s).key = s.key ∨
      d = .instr (.key 16) ∧ (ruleOf d s).inflight = .key ∧ (ruleOf d s).w = s.key ∧
        (ruleOf d s).key = Quad.zero := by
  rcases ruleOf_cases d s with
    ⟨c, -, e⟩ | ⟨-, e⟩ | ⟨hd, e⟩ | ⟨-, -, e⟩ | ⟨-, -, e⟩ | ⟨-, e⟩ | ⟨-, e⟩ <;> rw [e] <;> simp [*]

/-! ### What one step can do, with the turn that does it -/

theorem setInputs_of_inputs_eq {s : State} {l : List Event} (h : s.inputs = l) : s.setInputs l = s := by
  rw [← h]
  rfl

/-- The effects one step from `s` can have; `l` are the turns after it. -/
inductive StepEffect (s : State) : State → Prop where
  | engine (l : List Event) (h : EngineTurn s ((engineStep s).setInputs l)) :
      StepEffect s ((engineStep s).setInputs l)
  | reset (l : List Event) (h : ResetTurn s (resetCore (s.setInputs l))) : StepEffect s (resetCore (s.setInputs l))
  | shows (l : List Event) (v : Word) : StepEffect s ((s.setInputs l).setRdata v)
  | writesKey (l : List Event) (j : Fin 4) (v : Word) (h : HostWrites s ((taken s l).setKeyWord j v) (.key j) v) :
      StepEffect s ((taken s l).setKeyWord j v)
  | writesDin (l : List Event) (j : Fin 4) (v : Word) (h : HostWrites s ((taken s l).setDinWord j v) (.din j) v) :
      StepEffect s ((taken s l).setDinWord j v)
  | dropped (l : List Event) (v : Word) (hb : s.inflight ≠ .none) (h : HostWrites s (taken s l).setOverrun .cmd v) :
      StepEffect s (taken s l).setOverrun
  | accepted (l : List Event) (v : Word) (hi : s.inflight = .none)
      (h : HostWrites s (ruleOf (decode v) (taken s l).clearReport) .cmd v) :
      StepEffect s (ruleOf (decode v) (taken s l).clearReport)

theorem step_effect {s t : State} (h : step s = .next t) : StepEffect s t := by
  rcases step_cases h with ⟨h0, rfl⟩ | ⟨e, l, h0, eff⟩
  · have := StepEffect.engine (s := s) [] ⟨.inr ⟨h0, rfl⟩, (engineStep_setInputs [] s).symm⟩
    rwa [← engineStep_setInputs, setInputs_of_inputs_eq h0] at this
  · have hl : t.inputs = l := eff.inputs_eq
    cases eff with
    | engine he =>
      subst he
      rw [engineStep_setInputs]
      exact .engine l ⟨.inl h0, (engineStep_setInputs l s).symm⟩
    | reset he => exact .reset l ⟨⟨e, h0, he⟩, rfl⟩
    | shows v => exact .shows l v
    | writesKey j v hw => exact .writesKey l j v ⟨e, h0, hw⟩
    | writesDin j v hw => exact .writesDin l j v ⟨e, h0, hw⟩
    | command v _ hw hc =>
      rcases writeCmd_cases hc with ⟨hb, rfl⟩ | ⟨hi, rfl⟩
      · exact .dropped l v hb ⟨e, h0, hw⟩
      · exact .accepted l v hi ⟨e, h0.trans (congrArg (e :: ·) hl.symm), hw⟩

/-- An accepted CMD write is a command's turn. -/
theorem commandTurn_of_accepted {s : State} {l : List Event} {v : Word} (hi : s.inflight = .none)
    (h : HostWrites s (ruleOf (decode v) (taken s l).clearReport) .cmd v) :
    CommandTurn s (ruleOf (decode v) (taken s l).clearReport) := by
  obtain ⟨-, -, -, hr, hl, -⟩ := ruleOf_frame (decode v) (taken s l).clearReport
  refine ⟨v, h, ?_⟩
  rw [hr, hl]
  exact writeCmd_idle (s := taken s l) v hi

/-- A dropped CMD write is a command's turn. -/
theorem commandTurn_of_dropped {s : State} {l : List Event} {v : Word} (hb : s.inflight ≠ .none)
    (h : HostWrites s (taken s l).setOverrun .cmd v) : CommandTurn s (taken s l).setOverrun :=
  ⟨v, h, writeCmd_busy (s := taken s l) v hb⟩

/-! ### The invariant -/

/-- Settles O43: with no command in flight, no error and no key, every clause but the first is vacuous. -/
theorem resetMeetsTheInvariant : Obligations.ResetMeetsTheInvariant := by
  unfold Obligations.ResetMeetsTheInvariant
  constructor <;> simp [State.reset]

/-- The invariant speaks of INFLIGHT, the STATUS fields and RK only. -/
theorem StateInv.congr {s t : State} (hs : StateInv s) (hi : t.inflight = s.inflight) (hd : t.done = s.done)
    (hk : t.keyv = s.keyv) (ho : t.ovr = s.ovr) (he : t.err = s.err) (hr : t.rk = s.rk) : StateInv t := by
  obtain ⟨errCode, inFlight, errDone, ovrSource, keyvOff, keyvOn, schedule⟩ := hs
  constructor <;> simpa only [hi, hd, hk, ho, he, hr]

theorem StateInv.setOverrun {s : State} (hs : StateInv s) (hb : s.inflight ≠ .none) : StateInv s.setOverrun where
  errCode := hs.errCode
  inFlight := hs.inFlight
  errDone := hs.errDone
  ovrSource := fun _ => .inl hb
  keyvOff := hs.keyvOff
  keyvOn := hs.keyvOn
  schedule := hs.schedule

/-- A completed command leaves the core idle with DONE 1; RK is a schedule where KEYV is 1, since WIPE runs only with
KEYV 0. -/
theorem StateInv.engineStep {s : State} (hs : StateInv s) : StateInv (engineStep s) := by
  by_cases h : s.inflight = .none
  · rwa [engineStep_none h]
  obtain ⟨he, -⟩ := engineStep_frame s
  have hd : (Machine.engineStep s).done = true := by rw [engineStep_done, if_neg h]
  constructor
  case errCode => rw [he]; exact hs.errCode
  case schedule =>
    rw [engineStep_keyv, engineStep_rk]
    intro hk
    by_cases hkey : s.inflight = .key
    · exact ⟨s.w, if_pos hkey⟩
    · rw [if_neg hkey] at hk
      have hwipe : s.inflight ≠ .wipe := fun hw => by simp [hs.keyvOff (.inr hw)] at hk
      simpa [hkey, hwipe] using hs.schedule hk
  all_goals simp [hd]

/-- An error's report in an idle core. -/
theorem StateInv.raiseError {s : State} {code : BitVec 4} (hs : StateInv s) (hi : s.inflight = .none)
    (hc : code.toNat ≤ 3) : StateInv (s.raiseError code) where
  errCode := hc
  inFlight := fun hb => absurd hi hb
  errDone := fun _ => rfl
  ovrSource := fun _ => .inr rfl
  keyvOff := hs.keyvOff
  keyvOn := hs.keyvOn
  schedule := hs.schedule

theorem StateInv.clearReport {s : State} (hs : StateInv s) : StateInv s.clearReport where
  errCode := Nat.zero_le 3
  inFlight := fun _ => ⟨rfl, rfl⟩
  errDone := fun he => absurd rfl he
  ovrSource := nofun
  keyvOff := hs.keyvOff
  keyvOn := hs.keyvOn
  schedule := hs.schedule

/-- A command put in flight over a cleared report, with the KEYV it runs under. -/
theorem StateInv.launch {s : State} {op : Inflight} (hop : op ≠ .none) (hd : s.done = false) (he : s.err = 0)
    (hoff : op = .key ∨ op = .wipe → s.keyv = false) (hon : op = .enc ∨ op = .dec → s.keyv = true)
    (hsched : s.keyv = true → ∃ k : Quad, s.rk = derive (quadBytes k)) : StateInv (s.launch op) where
  errCode := by simp [he]
  inFlight := fun _ => ⟨hd, he⟩
  errDone := fun h => absurd he h
  ovrSource := fun _ => .inl hop
  keyvOff := hoff
  keyvOn := hon
  schedule := hsched

/-- An accepted word ends in an error's report, leaves the cleared report, or launches its command: KEY and WIPE with
KEYV cleared, ENC and DEC only with KEYV 1. -/
theorem StateInv.ruleOf_clearReport {s : State} (hs : StateInv s) (hi : s.inflight = .none) (d : Decoded) :
    StateInv (ruleOf d s.clearReport) := by
  have hsched : s.keyv = true → ∃ k : Quad, s.rk = derive (quadBytes k) := hs.schedule
  rcases ruleOf_cases d s.clearReport with
    ⟨c, hc, e⟩ | ⟨-, e⟩ | ⟨-, e⟩ | ⟨-, hk, e⟩ | ⟨-, hk, e⟩ | ⟨-, e⟩ | ⟨-, e⟩ <;> rw [e]
  · exact hs.clearReport.raiseError hi (by rcases hc with rfl | rfl | rfl <;> decide)
  · exact hs.clearReport
  · exact .launch nofun rfl rfl (fun _ => rfl) (by simp) nofun
  · exact .launch nofun rfl rfl (by simp) (fun _ => hk) hsched
  · exact .launch nofun rfl rfl (by simp) (fun _ => hk) hsched
  · exact .launch nofun rfl rfl (fun _ => rfl) (by simp) nofun
  · exact .launch nofun rfl rfl (by simp) (by simp) hsched

/-- Settles O44: each effect of a step keeps the invariant; reads and host writes of KEY and DIN touch nothing it
speaks of. -/
theorem everyStepKeepsTheInvariant : Obligations.EveryStepKeepsTheInvariant := by
  unfold Obligations.EveryStepKeepsTheInvariant
  intro s t hs h
  cases step_effect h with
  | engine l _ => exact hs.engineStep.congr rfl rfl rfl rfl rfl rfl
  | reset l _ => exact resetMeetsTheInvariant.congr rfl rfl rfl rfl rfl rfl
  | shows l v => exact hs.congr rfl rfl rfl rfl rfl rfl
  | writesKey l j v _ => exact hs.congr rfl rfl rfl rfl rfl rfl
  | writesDin l j v _ => exact hs.congr rfl rfl rfl rfl rfl rfl
  | dropped l v hb _ => exact StateInv.setOverrun (hs.congr rfl rfl rfl rfl rfl rfl) hb
  | accepted l v hi _ =>
    exact StateInv.ruleOf_clearReport (s := taken s l) (hs.congr rfl rfl rfl rfl rfl rfl) hi (decode v)

/-! ### Who writes what -/

/-- OVR over a step: kept, or cleared by a reset or an accepted CMD write, or set by a dropped one (10_state R26). -/
theorem step_ovr {s t : State} (h : step s = .next t) :
    t.ovr = s.ovr ∨ t.ovr = false ∧ (ResetTurn s t ∨ s.inflight = .none ∧ CommandTurn s t) ∨
      s.inflight ≠ .none ∧ CommandTurn s t ∧ t = { s with inputs := t.inputs, rdata := t.rdata, ovr := true } := by
  cases step_effect h with
  | engine l _ => exact .inl (engineStep_ovr s)
  | reset l hr => exact .inr (.inl ⟨rfl, .inl hr⟩)
  | shows l v => exact .inl rfl
  | writesKey l j v _ => exact .inl rfl
  | writesDin l j v _ => exact .inl rfl
  | dropped l v hb hw => exact .inr (.inr ⟨hb, commandTurn_of_dropped hb hw, rfl⟩)
  | accepted l v hi hw => exact .inr (.inl ⟨ruleOf_ovr _ _, .inr ⟨hi, commandTurn_of_accepted hi hw⟩⟩)

/-- Settles O30: only a dropped CMD write sets OVR; a reset and an accepted CMD write clear it. -/
theorem overrunIsStickyUntilTheNextCommand : Obligations.OverrunIsStickyUntilTheNextCommand := by
  unfold Obligations.OverrunIsStickyUntilTheNextCommand
  refine ⟨fun s v hb => writeCmd_busy v hb, engineStep_ovr, ?_, ?_, ?_⟩
  · intro s t v hi h
    rw [writeCmd_idle v hi] at h
    cases h
    exact ruleOf_ovr _ _
  · intro s t h hs ht
    rcases step_ovr h with hkept | ⟨-, hcleared⟩ | ⟨-, -, hset⟩
    · simp [hs, ht] at hkept
    · exact hcleared
    · rw [hset] at ht
      cases ht
  · intro s t h hs ht
    rcases step_ovr h with hkept | ⟨hcleared, -⟩ | hset
    · simp [hs, ht] at hkept
    · simp [ht] at hcleared
    · exact hset

/-- Settles O32: the completions of KEY and WIPE and a reset are the only effects that touch RK. -/
theorem roundKeysChangeOnlyByKeyWipeReset : Obligations.RoundKeysChangeOnlyByKeyWipeReset := by
  unfold Obligations.RoundKeysChangeOnlyByKeyWipeReset
  intro s t h hne
  cases step_effect h with
  | engine l he =>
    refine .inr ⟨he, by simp, ?_⟩
    by_cases hkey : s.inflight = .key
    · exact .inl ⟨hkey, by simp [engineStep_keyv, hkey], by simp [engineStep_rk, hkey]⟩
    · by_cases hwipe : s.inflight = .wipe
      · exact .inr ⟨hwipe, by simp [engineStep_rk, hwipe]⟩
      · simp [engineStep_rk, hkey, hwipe] at hne
  | reset l hr => exact .inl hr
  | shows l v => exact absurd rfl hne
  | writesKey l j v _ => exact absurd rfl hne
  | writesDin l j v _ => exact absurd rfl hne
  | dropped l v _ _ => exact absurd rfl hne
  | accepted l v _ _ => exact absurd (ruleOf_rk _ _) hne

/-- Settles O33: KEY's completion sets KEYV; a reset and the acceptance of KEY 16 or WIPE clear it. -/
theorem keyvChangesOnlyByKeyWipeReset : Obligations.KeyvChangesOnlyByKeyWipeReset := by
  unfold Obligations.KeyvChangesOnlyByKeyWipeReset
  intro s t h
  by_cases hne : t.keyv = s.keyv
  · exact ⟨fun hs ht => by simp [hs, ht] at hne, fun hs ht => by simp [hs, ht] at hne⟩
  cases step_effect h with
  | engine l he =>
    obtain ⟨hkey, hs⟩ : s.inflight = .key ∧ s.keyv = false := by simpa [engineStep_keyv] using hne
    exact ⟨fun _ _ => ⟨he, hkey, by simp, by simp [engineStep_rk, hkey]⟩, fun hs' => by simp [hs] at hs'⟩
  | reset l hr => exact ⟨fun _ => nofun, fun _ _ => .inl hr⟩
  | shows l v => exact absurd rfl hne
  | writesKey l j v _ => exact absurd rfl hne
  | writesDin l j v _ => exact absurd rfl hne
  | dropped l v _ _ => exact absurd rfl hne
  | accepted l v hi hw =>
    rcases ruleOf_keyv (decode v) (taken s l).clearReport with hk | ⟨hk, hd⟩
    · exact absurd hk hne
    · exact ⟨fun _ ht => absurd (hk.symm.trans ht) nofun, fun _ _ => .inr ⟨hi, v, hw, hd⟩⟩

/-- Settles O34: the host's write of a key word, the acceptance of KEY 16 and a reset are the only effects that touch
the key registers. -/
theorem keyRegistersChangeOnlyByHostKeyReset : Obligations.KeyRegistersChangeOnlyByHostKeyReset := by
  unfold Obligations.KeyRegistersChangeOnlyByHostKeyReset
  intro s t h hne
  cases step_effect h with
  | engine l _ => exact absurd (engineStep_keyRegisters s) hne
  | reset l hr => exact .inl hr
  | shows l v => exact absurd rfl hne
  | writesKey l j v hw => exact .inr (.inl ⟨j, v, hw, rfl⟩)
  | writesDin l j v _ => exact absurd rfl hne
  | dropped l v _ _ => exact absurd rfl hne
  | accepted l v hi hw =>
    rcases ruleOf_key (decode v) (taken s l).clearReport with hk | ⟨hd, hkey, hw', hz⟩
    · exact absurd hk hne
    · exact .inr (.inr ⟨hi, ⟨v, hw, hd⟩, hkey, hw', hz⟩)

/-- Settles O35: DIN is touched by the host's write of a block word and a reset, DOUT by the completion of ENC, DEC or
GSUB and a reset. -/
theorem blockRegistersChangeOnlyByTheirWriters : Obligations.BlockRegistersChangeOnlyByTheirWriters := by
  unfold Obligations.BlockRegistersChangeOnlyByTheirWriters
  intro s t h
  cases step_effect h with
  | engine l he =>
    refine ⟨fun hne => absurd (engineStep_din s) hne, fun hne => .inr ⟨he, by simp, ?_⟩⟩
    cases hi : s.inflight with
    | none | key | wipe => exact absurd (by simp [engineStep_dout, hi]) hne
    | enc => exact ⟨by simp [engineStep_done, hi], .inl ⟨rfl, by simp [engineStep_dout, hi]⟩⟩
    | dec => exact ⟨by simp [engineStep_done, hi], .inr (.inl ⟨rfl, by simp [engineStep_dout, hi]⟩)⟩
    | gsub => exact ⟨by simp [engineStep_done, hi], .inr (.inr ⟨rfl, by simp [engineStep_dout, hi]⟩)⟩
  | reset l hr => exact ⟨fun _ => .inl hr, fun _ => .inl hr⟩
  | shows l v => exact ⟨absurd rfl, absurd rfl⟩
  | writesKey l j v _ => exact ⟨absurd rfl, absurd rfl⟩
  | writesDin l j v hw => exact ⟨fun _ => .inr ⟨j, v, hw, rfl⟩, absurd rfl⟩
  | dropped l v _ _ => exact ⟨absurd rfl, absurd rfl⟩
  | accepted l v _ _ =>
    obtain ⟨hdin, hdout, -⟩ := ruleOf_frame (decode v) (taken s l).clearReport
    exact ⟨absurd hdin, absurd hdout⟩

/-- Settles O36: in a busy core only the engine's step and a reset touch INFLIGHT, W, RK, KEYV or DOUT; in an idle
one only an accepted CMD write launches a command. -/
theorem inFlightUntilCompletionOrReset : Obligations.InFlightUntilCompletionOrReset := by
  unfold Obligations.InFlightUntilCompletionOrReset
  intro s t h
  cases step_effect h with
  | engine l he => exact ⟨fun _ => .inr (.inr he), fun _ hb => absurd (engineStep_inflight s) hb⟩
  | reset l hr => exact ⟨fun _ => .inr (.inl hr), fun _ hb => absurd rfl hb⟩
  | shows l v => exact ⟨fun _ => .inl ⟨rfl, rfl, rfl, rfl, rfl⟩, fun hi hb => absurd hi hb⟩
  | writesKey l j v _ => exact ⟨fun _ => .inl ⟨rfl, rfl, rfl, rfl, rfl⟩, fun hi hb => absurd hi hb⟩
  | writesDin l j v _ => exact ⟨fun _ => .inl ⟨rfl, rfl, rfl, rfl, rfl⟩, fun hi hb => absurd hi hb⟩
  | dropped l v _ _ => exact ⟨fun _ => .inl ⟨rfl, rfl, rfl, rfl, rfl⟩, fun hi hb => absurd hi hb⟩
  | accepted l v hi hw => exact ⟨absurd hi, fun _ _ => commandTurn_of_accepted hi hw⟩

/-! ### Runs -/

theorem run_succ {M : Host.Core} {s t : M.State} (n : Nat) (h : M.step s = .next t) :
    M.run (n + 1) s = M.run n t := by
  rw [Host.Core.run, h]

theorem run_succ_refused {M : Host.Core} {s : M.State} {r : M.Refusal} (n : Nat) (h : M.step s = .refused r) :
    M.run (n + 1) s = .refused r := by
  rw [Host.Core.run, h]

/-- A turn in which the host keeps its duties is taken. -/
theorem step_of_admitted {s : State} {e : Event} {rest : List Event} (h : s.inputs = e :: rest)
    (he : e.admitted = true) : ∃ t, step s = .next t ∧ t.inputs = rest := by
  obtain ⟨t, ht⟩ := (runEvent_next_iff e (s.setInputs rest)).mpr he
  exact ⟨t, (step_cons h).trans ht, (runEvent_cases ht).inputs_eq⟩

/-- Settles O40, by induction on the turns still to come: each is taken, and the step after the last is the
engine's. -/
theorem admittedRunsEndIdle : Obligations.AdmittedRunsEndIdle := by
  unfold Obligations.AdmittedRunsEndIdle
  intro s hs
  generalize hl : s.inputs = l
  induction l generalizing s with
  | nil =>
    have hrun := run_succ (M := core) 0 (step_nil hl)
    exact ⟨engineStep s, hrun, by rw [engineStep_inputs, hl], engineStep_inflight s⟩
  | cons e rest ih =>
    obtain ⟨he, hrest⟩ : e.admitted = true ∧ rest.all Event.admitted = true := by
      simpa [admittedTrace, hl] using hs
    obtain ⟨t, ht, htl⟩ := step_of_admitted hl he
    obtain ⟨u, hu, hfinal⟩ := ih t (by rw [admittedTrace, htl, hrest]) htl
    exact ⟨u, (run_succ (M := core) (rest.length + 1) ht).trans hu, hfinal⟩

/-! ### A turn as one function of the state -/

/-- The functions a turn can apply. Two states with the same turns take the same function, which is what statements
about two runs need. -/
inductive TurnFunction : (State → State) → Prop where
  | engine : TurnFunction engineStep
  | reset : TurnFunction resetCore
  | idle : TurnFunction (State.setRdata 0)
  | shows (idx : BitVec 6) : TurnFunction fun s => s.setRdata (portRead idx s)
  | writesKey (j : Fin 4) (v : Word) : TurnFunction fun s => (s.setRdata 0).setKeyWord j v
  | writesDin (j : Fin 4) (v : Word) : TurnFunction fun s => (s.setRdata 0).setDinWord j v
  | command (d : Decoded) : TurnFunction fun s => accept (ruleOf d) (s.setRdata 0)

theorem portWrite_function (idx : BitVec 6) (v : Word) :
    ∃ f, TurnFunction f ∧ ∀ s, portWrite idx v (s.setRdata 0) = .next (f s) := by
  unfold portWrite
  cases slotAt idx with
  | none => exact ⟨_, .idle, fun _ => rfl⟩
  | some r =>
    cases r with
    | id j => exact ⟨_, .idle, fun _ => rfl⟩
    | status => exact ⟨_, .idle, fun _ => rfl⟩
    | cmd => exact ⟨_, .command (decode v), fun s => writeCmd_eq_accept v (s.setRdata 0)⟩
    | key j => exact ⟨_, .writesKey j v, fun _ => rfl⟩
    | din j => exact ⟨_, .writesDin j v, fun _ => rfl⟩
    | dout j => exact ⟨_, .idle, fun _ => rfl⟩

theorem portCycle_function (sig : Signals) :
    (∃ r, ∀ s, portCycle sig s = .refused r) ∨ ∃ f, TurnFunction f ∧ ∀ s, portCycle sig s = .next (f s) := by
  unfold portCycle
  split_ifs with hboth hrst hwr hrd
  · exact .inl ⟨_, fun _ => rfl⟩
  · exact .inr ⟨_, .reset, fun _ => rfl⟩
  · exact .inr (portWrite_function sig.addr sig.wdata)
  · exact .inr ⟨_, .shows sig.addr, fun _ => rfl⟩
  · exact .inr ⟨_, .idle, fun _ => rfl⟩

theorem busAccess_function (base addr size : Nat) (sig : BitVec 6 → Signals) :
    (∃ r, ∀ s, busAccess base addr size sig s = .refused r) ∨
      ∃ f, TurnFunction f ∧ ∀ s, busAccess base addr size sig s = .next (f s) := by
  unfold busAccess
  cases busTarget base addr size with
  | elsewhere => exact portCycle_function Signals.idle
  | slot idx => exact portCycle_function (sig idx)
  | misfit => exact .inl ⟨_, fun _ => rfl⟩

theorem runEvent_function (e : Event) :
    (∃ r, ∀ s, runEvent e s = .refused r) ∨ ∃ f, TurnFunction f ∧ ∀ s, runEvent e s = .next (f s) := by
  cases e with
  | cycle sig => exact portCycle_function sig
  | busRead addr size => exact busAccess_function _ addr size _
  | busWrite addr bytes => exact busAccess_function _ addr bytes.length _
  | engine => exact .inr ⟨_, .engine, fun _ => rfl⟩

/-- Which function a step applies, or why it is refused, follows from the turns still to come alone. -/
theorem step_function (l : List Event) :
    (∃ r, ∀ s, s.inputs = l → step s = .refused r) ∨
      ∃ f l', TurnFunction f ∧ ∀ s, s.inputs = l → step s = .next (f (s.setInputs l')) := by
  cases l with
  | nil => exact .inr ⟨_, [], .engine, fun s h => by rw [step_nil h, setInputs_of_inputs_eq h]⟩
  | cons e rest =>
    rcases runEvent_function e with ⟨r, hr⟩ | ⟨f, hf, hnext⟩
    · exact .inl ⟨r, fun s h => (step_cons h).trans (hr _)⟩
    · exact .inr ⟨f, rest, hf, fun s h => (step_cons h).trans (hnext _)⟩

/-! ### What a turn cannot read -/

theorem portRead_withKeyMaterial (idx : BitVec 6) (s : State) (key w : Quad) (rk : RoundKeys) :
    portRead idx { s with key := key, w := w, rk := rk } = portRead idx s := by
  unfold portRead
  cases slotAt idx with
  | none => rfl
  | some r => cases r <;> rfl

theorem engineStep_withKey (s : State) (key : Quad) :
    engineStep { s with key := key } = { engineStep s with key := key } := by
  cases s with
  | mk inflight => cases inflight <;> rfl

/-- A rule that does not launch KEY does not read the key registers. -/
theorem ruleOf_withKey {d : Decoded} {s : State} (key : Quad) (h : (ruleOf d s).inflight ≠ .key) :
    ruleOf d { s with key := key } = { ruleOf d s with key := key } := by
  have transform (op : Inflight) :
      acceptTransform op { s with key := key } = { acceptTransform op s with key := key } := by
    simp only [acceptTransform]
    split <;> rfl
  cases d with
  | illegal why => rfl
  | instr i =>
    cases i with
    | nop => rfl
    | key len =>
      by_cases hlen : len = 16
      · exact absurd (by simp [ruleOf, acceptKey, hlen]) h
      · simp only [ruleOf, acceptKey, if_neg hlen]
        rfl
    | enc => exact transform .enc
    | dec => exact transform .dec
    | wipe => rfl
    | gsub => rfl

theorem accept_withKey {d : Decoded} {s : State} (key : Quad)
    (h : ¬(s.inflight = .none ∧ (accept (ruleOf d) s).inflight = .key)) :
    accept (ruleOf d) { s with key := key } = { accept (ruleOf d) s with key := key } := by
  by_cases hi : s.inflight = .none
  · rw [accept_idle (s := s) _ hi] at h ⊢
    rw [accept_idle (s := { s with key := key }) _ hi]
    exact ruleOf_withKey (s := s.clearReport) key fun hk => h ⟨hi, hk⟩
  · rw [accept_busy (s := s) _ hi, accept_busy (s := { s with key := key }) _ hi]
    rfl

/-- Every turn but the acceptance of KEY keeps the key registers' content out of the rest of the state. -/
theorem TurnFunction.withKey {f : State → State} (hf : TurnFunction f) (s : State) (key : Quad)
    (h : ¬(s.inflight = .none ∧ (f s).inflight = .key)) :
    ∃ key' : Quad, f { s with key := key } = { f s with key := key' } := by
  cases hf with
  | engine => exact ⟨key, engineStep_withKey s key⟩
  | reset => exact ⟨Quad.zero, rfl⟩
  | idle => exact ⟨key, rfl⟩
  | shows idx => exact ⟨key, congrArg (State.setRdata · _) (portRead_withKeyMaterial idx s key s.w s.rk)⟩
  | writesKey j v => exact ⟨setWord key j v, rfl⟩
  | writesDin j v => exact ⟨key, rfl⟩
  | command d => exact ⟨key, accept_withKey (d := d) (s := s.setRdata 0) key h⟩

/-- Settles O41: the port reads no key material, and the function a turn applies reads the key registers only to
launch KEY. -/
theorem keyMaterialIsUnreadable : Obligations.KeyMaterialIsUnreadable := by
  unfold Obligations.KeyMaterialIsUnreadable
  refine ⟨fun s idx key w rk => portRead_withKeyMaterial idx s key w rk, ?_⟩
  intro s t key h hkey
  rcases step_function s.inputs with ⟨r, hr⟩ | ⟨f, l, hf, hnext⟩
  · rw [hr s rfl] at h
    cases h
  · rw [hnext s rfl] at h
    cases h
    obtain ⟨key', e⟩ := hf.withKey (s.setInputs l) key hkey
    exact ⟨key', (hnext { s with key := key } rfl).trans (congrArg _ e)⟩

/-! ### The schedule without a key -/

/-- No completion can read RK: no valid key, and neither ENC nor DEC in flight. -/
def ScheduleUnused (s : State) : Prop := s.keyv = false ∧ s.inflight ≠ .enc ∧ s.inflight ≠ .dec

theorem sameOutsideRk_refl (s : State) : SameOutsideRk s s := ⟨rfl, .inl rfl⟩

theorem sameOutsideRk_of_unused {s : State} (rk : RoundKeys) (h : ScheduleUnused s) :
    SameOutsideRk s { s with rk := rk } := ⟨rfl, .inr h⟩

/-- Two related states are one state, or differ in a schedule no completion can read. -/
theorem eq_or_unused_of_sameOutsideRk {s t : State} (h : SameOutsideRk s t) :
    t = s ∨ ScheduleUnused s ∧ ∃ rk, t = { s with rk := rk } := by
  obtain ⟨he, hr | hu⟩ := h
  · exact .inl (by rw [he, hr])
  · exact .inr ⟨hu, t.rk, he⟩

/-- No rule reads RK. -/
theorem ruleOf_withRk (d : Decoded) (s : State) (rk : RoundKeys) :
    ruleOf d { s with rk := rk } = { ruleOf d s with rk := rk } := by
  have transform (op : Inflight) :
      acceptTransform op { s with rk := rk } = { acceptTransform op s with rk := rk } := by
    simp only [acceptTransform]
    split <;> rfl
  cases d with
  | illegal why => rfl
  | instr i =>
    cases i with
    | nop => rfl
    | key len =>
      simp only [ruleOf, acceptKey]
      split <;> rfl
    | enc => exact transform .enc
    | dec => exact transform .dec
    | wipe => rfl
    | gsub => rfl

/-- Without a key no rule sets KEYV or launches a transform. -/
theorem ScheduleUnused.ruleOf {s : State} (h : ScheduleUnused s) (d : Decoded) : ScheduleUnused (ruleOf d s) := by
  have hk : s.keyv = false := h.1
  rcases ruleOf_cases d s with
    ⟨c, -, e⟩ | ⟨-, e⟩ | ⟨-, e⟩ | ⟨-, hon, -⟩ | ⟨-, hon, -⟩ | ⟨-, e⟩ | ⟨-, e⟩
  · rw [e]; exact h
  · rw [e]; exact h
  · rw [e]; exact ⟨rfl, nofun, nofun⟩
  · exact absurd (hk.symm.trans hon) nofun
  · exact absurd (hk.symm.trans hon) nofun
  · rw [e]; exact ⟨rfl, nofun, nofun⟩
  · rw [e]; exact ⟨hk, nofun, nofun⟩

/-- A CMD write does not read RK either, and leaves an unused schedule unused. -/
theorem accept_withRk {s : State} (d : Decoded) (rk : RoundKeys) (h : ScheduleUnused s) :
    SameOutsideRk (accept (ruleOf d) s) (accept (ruleOf d) { s with rk := rk }) := by
  by_cases hi : s.inflight = .none
  · rw [accept_idle (s := s) _ hi, accept_idle (s := { s with rk := rk }) _ hi]
    have hu : ScheduleUnused s.clearReport := h
    have e : ruleOf d (State.clearReport { s with rk := rk }) = { ruleOf d s.clearReport with rk := rk } :=
      ruleOf_withRk d s.clearReport rk
    rw [e]
    exact sameOutsideRk_of_unused rk (hu.ruleOf d)
  · rw [accept_busy (s := s) _ hi, accept_busy (s := { s with rk := rk }) _ hi]
    exact ⟨rfl, .inr h⟩

/-- A completion that cannot read RK keeps it, or overwrites all of it. -/
theorem engineStep_withRk {s : State} (rk : RoundKeys) (h : ScheduleUnused s) :
    SameOutsideRk (engineStep s) (engineStep { s with rk := rk }) := by
  obtain ⟨hk, henc, hdec⟩ := h
  cases s with
  | mk inflight =>
    cases inflight with
    | none => exact ⟨rfl, .inr ⟨hk, henc, hdec⟩⟩
    | key => exact sameOutsideRk_refl _
    | enc => exact absurd rfl henc
    | dec => exact absurd rfl hdec
    | wipe => exact sameOutsideRk_refl _
    | gsub => exact ⟨rfl, .inr ⟨hk, nofun, nofun⟩⟩

theorem TurnFunction.sameOutsideRk {f : State → State} (hf : TurnFunction f) {s t : State}
    (h : SameOutsideRk s t) : SameOutsideRk (f s) (f t) := by
  rcases eq_or_unused_of_sameOutsideRk h with rfl | ⟨hu, rk, rfl⟩
  · exact sameOutsideRk_refl _
  cases hf with
  | engine => exact engineStep_withRk rk hu
  | reset => exact sameOutsideRk_refl _
  | idle => exact ⟨rfl, .inr hu⟩
  | shows idx =>
    have hread : portRead idx { s with rk := rk } = portRead idx s :=
      portRead_withKeyMaterial idx s s.key s.w rk
    exact ⟨congrArg (State.setRdata · _) hread, .inr hu⟩
  | writesKey j v => exact ⟨rfl, .inr hu⟩
  | writesDin j v => exact ⟨rfl, .inr hu⟩
  | command d => exact accept_withRk (s := s.setRdata 0) d rk hu

/-- Related states are refused alike or step to related states. -/
theorem step_sameOutsideRk {s t : State} (h : SameOutsideRk s t) :
    (∃ r, step s = .refused r ∧ step t = .refused r) ∨
      ∃ s' t', step s = .next s' ∧ step t = .next t' ∧ SameOutsideRk s' t' := by
  have hl : t.inputs = s.inputs := by rw [h.1]
  rcases step_function s.inputs with ⟨r, hr⟩ | ⟨f, l, hf, hnext⟩
  · exact .inl ⟨r, hr s rfl, hr t hl⟩
  · have hset : SameOutsideRk (s.setInputs l) (t.setInputs l) := ⟨congrArg (State.setInputs l) h.1, h.2⟩
    exact .inr ⟨_, _, hnext s rfl, hnext t hl, hf.sameOutsideRk hset⟩

theorem run_sameOutsideRk (n : Nat) {s t : State} (h : SameOutsideRk s t) :
    OutcomesMatch (Host.Core.run core n s) (Host.Core.run core n t) := by
  induction n generalizing s t with
  | zero => exact h
  | succ n ih =>
    rcases step_sameOutsideRk h with ⟨r, hs, ht⟩ | ⟨s', t', hs, ht, h'⟩
    · have es := run_succ_refused (M := core) n hs
      have et := run_succ_refused (M := core) n ht
      simp only [es, et, OutcomesMatch]
    · have es := run_succ (M := core) n hs
      have et := run_succ (M := core) n ht
      exact es.symm ▸ et.symm ▸ ih h'

/-- Settles O42, by induction on the number of steps over states related outside RK. -/
theorem unusedScheduleIsInvisible : Obligations.UnusedScheduleIsInvisible := by
  unfold Obligations.UnusedScheduleIsInvisible
  intro n s rk hk henc hdec
  exact run_sameOutsideRk n (sameOutsideRk_of_unused rk ⟨hk, henc, hdec⟩)

/-! ### Slots, the STATUS word, and the oldest turn -/

/-- Settles O2: the identity slots hold constants, which no write and no reset reaches. -/
theorem identityRegistersAreConstants : Obligations.IdentityRegistersAreConstants := by
  unfold Obligations.IdentityRegistersAreConstants
  have slotAt_id {idx : BitVec 6} (h : idx.toNat < 3) : slotAt idx = some (.id ⟨idx.toNat, h⟩) := dif_pos h
  refine fun s => ⟨rfl, rfl, rfl, fun idx v h => ?_, fun idx h => ?_⟩
  · rw [portWrite, slotAt_id h]
    rfl
  · rw [portRead, portRead, slotAt_id h]
    rfl

theorem getElem_flagWord (b : Bool) (i : Nat) (h : i < 32) : (flagWord b)[i] = (decide (i = 0) && b) := by
  cases i <;> simp [flagWord]

/-- Every bit of the STATUS word (10_state R22). -/
theorem getLsbD_statusWord (s : State) (i : Nat) :
    (statusWord s).getLsbD i =
      if i = 0 then s.busy else if i = 1 then s.done else if i = 2 then s.keyv else if i = 3 then s.ovr
      else s.err.getLsbD (i - 4) := by
  by_cases h : i < 32
  · interval_cases i <;> simp [statusWord, getElem_flagWord]
  · have top : s.err.getLsbD (i - 4) = false := BitVec.getLsbD_of_ge _ _ (by omega)
    rw [if_neg (by omega), if_neg (by omega), if_neg (by omega), if_neg (by omega), top]
    exact BitVec.getLsbD_of_ge _ _ (by omega)

theorem getLsbD_statusWord_of_le (s : State) {i : Nat} (h : 4 ≤ i) :
    (statusWord s).getLsbD i = s.err.getLsbD (i - 4) := by
  rw [getLsbD_statusWord, if_neg (by omega), if_neg (by omega), if_neg (by omega), if_neg (by omega)]

/-- Settles O4: each field of STATUS is read off the bits of the word. -/
theorem statusWordLayout : Obligations.StatusWordLayout := by
  unfold Obligations.StatusWordLayout
  refine fun s => ⟨getLsbD_statusWord s 0, getLsbD_statusWord s 1, getLsbD_statusWord s 2,
    getLsbD_statusWord s 3, ?_, fun i hi => ?_⟩
  · apply BitVec.eq_of_getLsbD_eq
    intro i hi
    simp [getLsbD_statusWord_of_le, hi]
  · rw [getLsbD_statusWord_of_le s (by omega)]
    exact BitVec.getLsbD_of_ge _ _ (by omega)

/-- Settles O13: the oldest turn is taken off the list and run; at slot 4 the port write is the CMD write. -/
theorem cmdWriteRunsTheDecodedCommand : Obligations.CmdWriteRunsTheDecodedCommand := by
  unfold Obligations.CmdWriteRunsTheDecodedCommand
  refine ⟨fun s e rest h => step_cons h, fun _ _ => rfl, fun _ => rfl, fun s h => step_nil h, ?_⟩
  intro s v rest h
  have hstep : step s = writeCmd v (taken s rest) := (step_cons h).trans (portCycle_write 4 v _)
  constructor
  · intro i hd
    rw [hstep, writeCmd, hd]
  · intro why hd
    rw [hstep, writeCmd, hd]

end Sys2Proof.Machine

/-! The register port: the slot map as an equivalence per name, what a read and a write of a slot do, and the bus in
front of the port (20_memory R50 to R61). -/

namespace Sys2Proof.Machine

/-! ### The slot map (20_memory R53) -/

theorem index_of_slotAt {idx : BitVec 6} {r : PortReg} (h : slotAt idx = some r) : r.index = idx := by
  have index_of_mem : ∀ idx : BitVec 6, ∀ r ∈ slotAt idx, r.index = idx := by decide
  exact index_of_mem idx r h

/-- A named register stands at its own index and nowhere else. -/
theorem slotAt_eq_some_iff (idx : BitVec 6) (r : PortReg) : slotAt idx = some r ↔ idx.toNat = r.index.toNat :=
  ⟨fun h => by rw [index_of_slotAt h], fun h => by rw [BitVec.eq_of_toNat_eq h, slotAt_index]⟩

theorem slotAt_id_iff (idx : BitVec 6) (j : Fin 3) : slotAt idx = some (.id j) ↔ idx.toNat = j.val := by
  rw [slotAt_eq_some_iff, PortReg.index, BitVec.toNat_ofNat, Nat.mod_eq_of_lt (by omega)]

theorem slotAt_status_iff (idx : BitVec 6) : slotAt idx = some .status ↔ idx.toNat = 3 :=
  slotAt_eq_some_iff idx .status

theorem slotAt_cmd_iff_toNat (idx : BitVec 6) : slotAt idx = some .cmd ↔ idx.toNat = 4 :=
  slotAt_eq_some_iff idx .cmd

theorem slotAt_key_iff (idx : BitVec 6) (j : Fin 4) : slotAt idx = some (.key j) ↔ idx.toNat = 8 + j.val := by
  rw [slotAt_eq_some_iff, PortReg.index, BitVec.toNat_ofNat, Nat.mod_eq_of_lt (by omega)]

theorem slotAt_din_iff (idx : BitVec 6) (j : Fin 4) : slotAt idx = some (.din j) ↔ idx.toNat = 12 + j.val := by
  rw [slotAt_eq_some_iff, PortReg.index, BitVec.toNat_ofNat, Nat.mod_eq_of_lt (by omega)]

theorem slotAt_dout_iff (idx : BitVec 6) (j : Fin 4) : slotAt idx = some (.dout j) ↔ idx.toNat = 16 + j.val := by
  rw [slotAt_eq_some_iff, PortReg.index, BitVec.toNat_ofNat, Nat.mod_eq_of_lt (by omega)]

theorem slotAt_none_iff (idx : BitVec 6) :
    slotAt idx = none ↔ (5 ≤ idx.toNat ∧ idx.toNat ≤ 7) ∨ 20 ≤ idx.toNat := by
  unfold slotAt
  split_ifs <;> simp only [false_iff, true_iff] <;> omega

/-- Settles O3: the equivalence of each name, and of having none. -/
theorem slotMapIsTheSpecsTable : Obligations.SlotMapIsTheSpecsTable := by
  unfold Obligations.SlotMapIsTheSpecsTable
  exact ⟨slotAt_id_iff, slotAt_status_iff, slotAt_cmd_iff_toNat, slotAt_key_iff, slotAt_din_iff, slotAt_dout_iff,
    slotAt_none_iff, slotAt_index⟩

/-! ### The cycle of each transaction (20_memory R51, 30_encoding R86) -/

/-- A read cycle does not look at the write data. -/
theorem portCycle_rdEn (idx : BitVec 6) (v : Word) (s : State) :
    portCycle ⟨false, true, false, idx, v⟩ s = .next (s.setRdata (portRead idx s)) := rfl

/-- An idle cycle looks at neither the address nor the write data. -/
theorem portCycle_noEnable (idx : BitVec 6) (v : Word) (s : State) :
    portCycle ⟨false, false, false, idx, v⟩ s = .next (s.setRdata 0) := rfl

theorem portCycle_bothEnables (idx : BitVec 6) (v : Word) (s : State) :
    portCycle ⟨false, true, true, idx, v⟩ s = .refused .bothEnables := rfl

/-- Settles O59: one rule for each combination of the enables. -/
theorem portCycleIsItsTransaction : Obligations.PortCycleIsItsTransaction := by
  unfold Obligations.PortCycleIsItsTransaction
  exact fun s idx v => ⟨portCycle_write idx v s, portCycle_rdEn idx v s, portCycle_noEnable idx v s,
    portCycle_bothEnables idx v s⟩

/-! ### Reads (20_memory R54) -/

theorem portRead_of_slotAt {idx : BitVec 6} {r : PortReg} (h : slotAt idx = some r) (s : State) :
    portRead idx s = readReg s r := by rw [portRead, h]

theorem portRead_of_reserved {idx : BitVec 6} (h : slotAt idx = none) (s : State) : portRead idx s = 0 := by
  rw [portRead, h]

/-- Settles O5: the index names the slot, and the slot's register gives the value. -/
theorem portReadReturnsTheSlotValue : Obligations.PortReadReturnsTheSlotValue := by
  unfold Obligations.PortReadReturnsTheSlotValue
  intro s idx v
  exact ⟨portCycle_rdEn idx v s,
    fun h => portRead_of_slotAt ((slotAt_id_iff idx 0).mpr h) s,
    fun h => portRead_of_slotAt ((slotAt_id_iff idx 1).mpr h) s,
    fun h => portRead_of_slotAt ((slotAt_id_iff idx 2).mpr h) s,
    fun h => portRead_of_slotAt ((slotAt_status_iff idx).mpr h) s,
    fun h => portRead_of_slotAt ((slotAt_cmd_iff_toNat idx).mpr h) s,
    fun j h => portRead_of_slotAt ((slotAt_key_iff idx j).mpr h) s,
    fun j h => portRead_of_slotAt ((slotAt_din_iff idx j).mpr h) s,
    fun j h => portRead_of_slotAt ((slotAt_dout_iff idx j).mpr h) s,
    fun h => portRead_of_reserved ((slotAt_none_iff idx).mpr h) s⟩

/-! ### Writes (20_memory R55, R61) -/

theorem portWrite_of_slotAt {idx : BitVec 6} {r : PortReg} (h : slotAt idx = some r) (v : Word) (s : State) :
    portWrite idx v s = writeReg r v s := by rw [portWrite, h]

theorem portWrite_of_reserved {idx : BitVec 6} (h : slotAt idx = none) (v : Word) (s : State) :
    portWrite idx v s = .next s := by rw [portWrite, h]

/-- Only CMD, KEYj and DINj (the slots 4 and 8 to 15) take a write. -/
theorem portWrite_ignored {idx : BitVec 6} (h : idx.toNat < 4 ∨ (5 ≤ idx.toNat ∧ idx.toNat ≤ 7) ∨ 16 ≤ idx.toNat)
    (v : Word) (s : State) : portWrite idx v s = .next s := by
  cases hr : slotAt idx with
  | none => exact portWrite_of_reserved hr v s
  | some r =>
    rw [portWrite_of_slotAt hr]
    cases r with
    | id j => rfl
    | status => rfl
    | cmd => have := (slotAt_cmd_iff_toNat idx).mp hr; omega
    | key j => have := (slotAt_key_iff idx j).mp hr; omega
    | din j => have := (slotAt_din_iff idx j).mp hr; omega
    | dout j => rfl

theorem wordAt_setWord (q : Quad) (j k : Fin 4) (v : Word) :
    wordAt (setWord q j v) k = if k = j then v else wordAt q k := by
  split_ifs with h
  · rw [h, wordAt_setWord_same]
  · exact wordAt_setWord_ne q v h

/-- Settles O6: the index names the slot, and the slot's register takes or ignores the word. -/
theorem portWriteActsOnItsSlotOnly : Obligations.PortWriteActsOnItsSlotOnly := by
  unfold Obligations.PortWriteActsOnItsSlotOnly
  intro s idx v
  exact ⟨fun j h => portWrite_of_slotAt ((slotAt_key_iff idx j).mpr h) v s,
    fun j h => portWrite_of_slotAt ((slotAt_din_iff idx j).mpr h) v s,
    fun h => portWrite_of_slotAt ((slotAt_cmd_iff_toNat idx).mpr h) v s,
    fun h => portWrite_ignored h v s,
    fun q j k => wordAt_setWord q j k v⟩

theorem setKeyWord_setKeyWord_same (j : Fin 4) (v v' : Word) (s : State) :
    (s.setKeyWord j v).setKeyWord j v' = s.setKeyWord j v' := by simp [State.setKeyWord]

theorem setDinWord_setDinWord_same (j : Fin 4) (v v' : Word) (s : State) :
    (s.setDinWord j v).setDinWord j v' = s.setDinWord j v' := by simp [State.setDinWord]

/-- A write of a register other than CMD stores a key or block word or nothing, and is idempotent. -/
theorem writeReg_stores {r : PortReg} (hr : r ≠ .cmd) (v : Word) (s : State) :
    ∃ t, writeReg r v s = .next t ∧ t = { s with key := t.key, din := t.din } ∧ writeReg r v t = .next t := by
  cases r with
  | id j => exact ⟨s, rfl, rfl, rfl⟩
  | status => exact ⟨s, rfl, rfl, rfl⟩
  | cmd => exact absurd rfl hr
  | key j => exact ⟨s.setKeyWord j v, rfl, rfl, congrArg Host.Outcome.next (setKeyWord_setKeyWord_same j v v s)⟩
  | din j => exact ⟨s.setDinWord j v, rfl, rfl, congrArg Host.Outcome.next (setDinWord_setDinWord_same j v v s)⟩
  | dout j => exact ⟨s, rfl, rfl, rfl⟩

/-- The same for a write by index. -/
theorem portWrite_stores {idx : BitVec 6} (hidx : idx ≠ 4) (v : Word) (s : State) :
    ∃ t, portWrite idx v s = .next t ∧ t = { s with key := t.key, din := t.din } ∧ portWrite idx v t = .next t := by
  cases hr : slotAt idx with
  | none => exact ⟨s, portWrite_of_reserved hr v s, rfl, portWrite_of_reserved hr v s⟩
  | some r =>
    have hcmd : r ≠ .cmd := fun h => hidx ((slotAt_cmd_iff idx).mp (h ▸ hr))
    simpa only [portWrite_of_slotAt hr] using writeReg_stores hcmd v s

/-- A word that starts a command is dropped when it is written again, and the drop sets OVR. -/
theorem writeCmd_twice_sets_overrun {v : Word} {s : State} (hi : s.inflight = .none)
    (hb : (ruleOf (decode v) s.clearReport).inflight ≠ .none) :
    ∃ t u, writeCmd v s = .next t ∧ writeCmd v t = .next u ∧ t.ovr = false ∧ u.ovr = true :=
  ⟨_, _, writeCmd_idle v hi, writeCmd_busy v hb, ruleOf_ovr _ _, rfl⟩

/-- Settles O7: a write outside CMD stores and a read shows; WIPE (word 4) written twice from reset raises OVR. -/
theorem onlyCmdWritesHaveSideEffects : Obligations.OnlyCmdWritesHaveSideEffects := by
  unfold Obligations.OnlyCmdWritesHaveSideEffects
  refine ⟨fun s idx v hidx => portWrite_stores hidx v s, fun s idx => ⟨_, portCycle_read idx s, rfl⟩, ?_⟩
  obtain ⟨t, u, ht, hu, htovr, huovr⟩ :=
    writeCmd_twice_sets_overrun (v := 4) (s := State.reset) rfl (by decide)
  exact ⟨State.reset, t, u, 4, ht, hu, ne_of_apply_ne State.ovr (by simp [htovr, huovr])⟩

/-! ### The bus (20_memory R50, R58, R59) -/

theorem busTarget_slot {base : Nat} (hbase : base % 4 = 0) (idx : BitVec 6) :
    busTarget base (base + 4 * idx.toNat) 4 = .slot idx := by
  have hidx : idx.toNat < 64 := idx.isLt
  rw [busTarget, if_neg (by omega), if_pos (by omega), Nat.add_sub_cancel_left,
    Nat.mul_div_cancel_left _ (by decide), BitVec.ofNat_toNat, BitVec.setWidth_eq]

theorem busTarget_misfit {base addr size : Nat} (hbelow : addr < base + 256) (habove : base < addr + size)
    (h : size ≠ 4 ∨ addr % 4 ≠ 0 ∨ base % 4 ≠ 0) : busTarget base addr size = .misfit := by
  rw [busTarget, if_neg (by omega), if_neg (by omega)]

theorem busTarget_elsewhere {base addr size : Nat} (h : addr + size ≤ base ∨ base + 256 ≤ addr) :
    busTarget base addr size = .elsewhere := if_pos h

/-- Byte lane `i` of the word a bus write carries is the byte at the address that lane stands for. -/
theorem byteOf_busWord (lane : Equiv.Perm (Fin 4)) (bytes : List Byte) (i : Fin 4) :
    byteOf (busWord lane bytes) i.val = bytes.getD (lane.symm i).val 0 := by
  unfold busWord
  fin_cases i
  · exact byteOf_packBytes_0 ..
  · exact byteOf_packBytes_1 ..
  · exact byteOf_packBytes_2 ..
  · exact byteOf_packBytes_3 ..

theorem busBytes_busWord (lane : Equiv.Perm (Fin 4)) {bytes : List Byte} (h : bytes.length = 4) :
    busBytes lane (busWord lane bytes) = bytes := by
  obtain ⟨b0, b1, b2, b3, rfl⟩ := List.length_eq_four.mp h
  simp [busBytes, byteOf_busWord]

/-- Settles O8: where the access falls decides the transaction, and the byte lanes are inverted by a read. -/
theorem busAccessIsOneAlignedSlot : Obligations.BusAccessIsOneAlignedSlot := by
  unfold Obligations.BusAccessIsOneAlignedSlot
  refine ⟨fun _ _ _ => rfl, fun _ _ _ => rfl, ?_, ?_, ?_, fun lane _ h => busBytes_busWord lane h⟩
  · intro base idx sig s hbase
    rw [busAccess, busTarget_slot hbase]
  · intro base addr size sig s hbelow habove h
    rw [busAccess, busTarget_misfit hbelow habove h]
  · intro base addr size sig s h
    rw [busAccess, busTarget_elsewhere h]
    exact portCycle_idle s

end Sys2Proof.Machine

/-! The command words: the decoder clause by clause, and decoder and encoder as inverses of each other
(30_encoding R80 to R88). -/

namespace Sys2Proof.Machine

open Laws.EncodingFits (opField_commandWord lenField_commandWord res0Field_commandWord res1Field_commandWord)

/-! ### The decoder, one equation per line of R84 -/

theorem decode_reservedBits {w : Word} (h : res1Field w ≠ 0 ∨ res0Field w ≠ 0) :
    decode w = .illegal .reservedBits := if_pos h

theorem decode_of_reservedClear {w : Word} (hres1 : res1Field w = 0) (hres0 : res0Field w = 0) :
    decode w =
      if opField w = 1 then .instr (.key (lenField w).toNat)
      else if lenField w ≠ 0 then .illegal .lenOutsideKey
      else decodeOp (opField w) :=
  if_neg (not_or.mpr ⟨not_not.mpr hres1, not_not.mpr hres0⟩)

theorem decode_key {w : Word} (hres1 : res1Field w = 0) (hres0 : res0Field w = 0) (hop : opField w = 1) :
    decode w = .instr (.key (lenField w).toNat) := by
  rw [decode_of_reservedClear hres1 hres0, if_pos hop]

theorem decode_lenOutsideKey {w : Word} (hres1 : res1Field w = 0) (hres0 : res0Field w = 0)
    (hop : opField w ≠ 1) (hlen : lenField w ≠ 0) : decode w = .illegal .lenOutsideKey := by
  rw [decode_of_reservedClear hres1 hres0, if_neg hop, if_pos hlen]

theorem decode_opcode {w : Word} (hres1 : res1Field w = 0) (hres0 : res0Field w = 0)
    (hop : opField w ≠ 1) (hlen : lenField w = 0) : decode w = decodeOp (opField w) := by
  rw [decode_of_reservedClear hres1 hres0, if_neg hop, if_neg (not_not.mpr hlen)]

/-- With only OP set, the opcode's own value is decoded. -/
theorem decode_opcode_eq {w : Word} {op : BitVec 4} (hres1 : res1Field w = 0) (hres0 : res0Field w = 0)
    (hlen : lenField w = 0) (hop : opField w = op) (hkey : op ≠ 1) : decode w = decodeOp op :=
  hop ▸ decode_opcode hres1 hres0 (hop ▸ hkey) hlen

theorem decodeOp_reserved {op : BitVec 4} (h : 6 ≤ op.toNat) : decodeOp op = .illegal .reservedOpcode := by
  revert op
  decide

/-! ### Words and their fields -/

/-- The four fields cover all 32 bits (R80), so they determine the word. -/
theorem eq_of_fields_eq {v w : Word} (hop : opField v = opField w) (hres0 : res0Field v = res0Field w)
    (hlen : lenField v = lenField w) (hres1 : res1Field v = res1Field w) : v = w := by
  apply BitVec.eq_of_toNat_eq
  replace hop := congrArg BitVec.toNat hop
  replace hres0 := congrArg BitVec.toNat hres0
  replace hlen := congrArg BitVec.toNat hlen
  replace hres1 := congrArg BitVec.toNat hres1
  simp only [opField, res0Field, lenField, res1Field, BitVec.extractLsb'_toNat, Nat.shiftRight_eq_div_pow]
    at hop hres0 hlen hres1
  omega

/-- A word whose reserved bits are 0 is the word of its OP and its LEN. -/
theorem commandWord_fields {w : Word} (hres1 : res1Field w = 0) (hres0 : res0Field w = 0) :
    commandWord (opField w) (lenField w) = w :=
  eq_of_fields_eq (opField_commandWord _ _) ((res0Field_commandWord _ _).trans hres0.symm)
    (lenField_commandWord _ _) ((res1Field_commandWord _ _).trans hres1.symm)

theorem decode_commandWord_key (len : BitVec 8) : decode (commandWord 1 len) = .instr (.key len.toNat) := by
  rw [decode_key (res1Field_commandWord _ _) (res0Field_commandWord _ _) (opField_commandWord _ _),
    lenField_commandWord]

theorem decode_commandWord_opcode {op : BitVec 4} (hop : op ≠ 1) : decode (commandWord op 0) = decodeOp op :=
  decode_opcode_eq (res1Field_commandWord _ _) (res0Field_commandWord _ _) (lenField_commandWord _ _)
    (opField_commandWord _ _) hop

/-! ### The round trip -/

/-- Settles O11: the fields of a command's word lead the decoder back to it; LEN holds every length below 256. -/
theorem decodeOfEncodeIsTheCommand : Obligations.DecodeOfEncodeIsTheCommand := by
  unfold Obligations.DecodeOfEncodeIsTheCommand
  intro i hi
  cases i with
  | key len =>
    have hlen : len < 256 := of_decide_eq_true hi
    rw [encode, decode_commandWord_key, BitVec.toNat_ofNat, Nat.mod_eq_of_lt hlen]
  | nop => exact decode_commandWord_opcode (by decide)
  | enc => exact decode_commandWord_opcode (by decide)
  | dec => exact decode_commandWord_opcode (by decide)
  | wipe => exact decode_commandWord_opcode (by decide)
  | gsub => exact decode_commandWord_opcode (by decide)

/-- An opcode other than KEY's that is read as a command is that command's opcode. -/
theorem encode_of_decodeOp {op : BitVec 4} {i : Instr} (h : decodeOp op = .instr i) :
    i.wf = true ∧ encode i = commandWord op 0 := by
  unfold decodeOp at h
  split_ifs at h with h0 h2 h3 h4 h5 <;> cases h <;> subst op <;> exact ⟨rfl, rfl⟩

/-- Settles O12: a word read as a command has no reserved bit set, so it is made of OP and LEN, and each line of
R84 that gives a command gives the one with these fields. -/
theorem encodeOfDecodeIsTheWord : Obligations.EncodeOfDecodeIsTheWord := by
  unfold Obligations.EncodeOfDecodeIsTheWord
  intro w i h
  by_cases hres : res1Field w ≠ 0 ∨ res0Field w ≠ 0
  · rw [decode_reservedBits hres] at h
    cases h
  · obtain ⟨hres1, hres0⟩ : res1Field w = 0 ∧ res0Field w = 0 := by simpa using hres
    have hw := commandWord_fields hres1 hres0
    by_cases hop : opField w = 1
    · cases (decode_key hres1 hres0 hop).symm.trans h
      rw [hop] at hw
      exact ⟨decide_eq_true (lenField w).isLt, by rw [encode, BitVec.ofNat_toNat, BitVec.setWidth_eq, hw]⟩
    · by_cases hlen : lenField w = 0
      · rw [hlen] at hw
        rw [← hw]
        exact encode_of_decodeOp ((decode_opcode hres1 hres0 hop hlen).symm.trans h)
      · rw [decode_lenOutsideKey hres1 hres0 hop hlen] at h
        cases h

/-- The words the encoder makes, written out (R81, R88). -/
theorem exists_encode_iff (w : Word) :
    (∃ i : Instr, i.wf = true ∧ encode i = w) ↔
      w = 0 ∨ w = 2 ∨ w = 3 ∨ w = 4 ∨ w = 5 ∨ ∃ len : BitVec 8, w = (len.setWidth 32 <<< 8) ||| 1 := by
  constructor
  · rintro ⟨i, -, rfl⟩
    cases i with
    | nop => exact .inl rfl
    | enc => exact .inr (.inl rfl)
    | dec => exact .inr (.inr (.inl rfl))
    | wipe => exact .inr (.inr (.inr (.inl rfl)))
    | gsub => exact .inr (.inr (.inr (.inr (.inl rfl))))
    | key len => exact .inr (.inr (.inr (.inr (.inr ⟨_, rfl⟩))))
  · rintro (rfl | rfl | rfl | rfl | rfl | ⟨len, rfl⟩)
    · exact ⟨.nop, rfl, rfl⟩
    · exact ⟨.enc, rfl, rfl⟩
    · exact ⟨.dec, rfl, rfl⟩
    · exact ⟨.wipe, rfl, rfl⟩
    · exact ⟨.gsub, rfl, rfl⟩
    · exact ⟨.key len.toNat, decide_eq_true len.isLt, by simp [encode, commandWord]⟩

/-- The words read as a command are the words of the well-formed commands. -/
theorem exists_decode_iff_exists_encode (w : Word) :
    (∃ i, decode w = .instr i) ↔ ∃ i : Instr, i.wf = true ∧ encode i = w := by
  constructor
  · rintro ⟨i, h⟩
    exact ⟨i, encodeOfDecodeIsTheWord w i h⟩
  · rintro ⟨i, hi, rfl⟩
    exact ⟨i, decodeOfEncodeIsTheCommand i hi⟩

/-- Settles O9: each clause is the decoder's equation for it, and the legal words are the encoder's. -/
theorem decodeFollowsTheFormat : Obligations.DecodeFollowsTheFormat := by
  unfold Obligations.DecodeFollowsTheFormat
  refine fun w => ⟨fun h => ⟨_, decode_reservedBits h⟩, fun hres1 hres0 => ⟨decode_key hres1 hres0,
    fun hop hlen => ⟨_, decode_lenOutsideKey hres1 hres0 hop hlen⟩, fun hlen => ?_⟩,
    (exists_decode_iff_exists_encode w).trans (exists_encode_iff w)⟩
  have opcode {op : BitVec 4} (hkey : op ≠ 1) (hop : opField w = op) : decode w = decodeOp op :=
    decode_opcode_eq hres1 hres0 hlen hop hkey
  refine ⟨opcode (by decide), opcode (by decide), opcode (by decide), opcode (by decide), opcode (by decide),
    fun hop => ?_⟩
  have hkey : opField w ≠ 1 := fun h => absurd (h ▸ hop : 6 ≤ (1 : BitVec 4).toNat) (by decide)
  exact ⟨_, (opcode hkey rfl).trans (decodeOp_reserved hop)⟩

/-- Settles O10: each printed word is its OP and LEN put together, and 0x100 has a LEN outside KEY. -/
theorem specWordsDecode : Obligations.SpecWordsDecode := by
  unfold Obligations.SpecWordsDecode
  exact ⟨decode_commandWord_opcode (op := 0) (by decide), decode_commandWord_key 16, decode_commandWord_key 255,
    decode_commandWord_opcode (op := 2) (by decide), decode_commandWord_opcode (op := 3) (by decide),
    decode_commandWord_opcode (op := 4) (by decide), decode_commandWord_opcode (op := 5) (by decide),
    ⟨_, decode_commandWord_opcode (op := 6) (by decide)⟩,
    ⟨_, decode_lenOutsideKey (w := 0x100) (by decide) (by decide) (by decide) (by decide)⟩⟩

end Sys2Proof.Machine

/-! The substitution network: the word tables and G byte by byte, and the S-boxes' algebraic form and inverse tables
(40_substitution R100 to R105). -/

namespace Sys2Proof.Machine

open Sys2Proof.Claims

/-! ### The word tables and G (40_substitution R103 to R105) -/

/-- The model's mask table is the one the statements write out. -/
theorem mask_eq_maskValue (k : Nat) : mask k = maskValue k := by
  have hk : k % 4 < 4 := Nat.mod_lt _ (by decide)
  unfold mask maskValue
  interval_cases k % 4 <;> rfl

/-- Byte `j` of word table `i` is the S-box value under mask `i + j`. -/
theorem byteOf_ssWord (i : Nat) (y : Byte) {j : Nat} (hj : j < 4) :
    byteOf (ssWord i y) j = y &&& maskValue (i + j) := by
  rw [← mask_eq_maskValue, ssWord]
  interval_cases j
  · exact byteOf_packBytes_0 ..
  · exact byteOf_packBytes_1 ..
  · exact byteOf_packBytes_2 ..
  · exact byteOf_packBytes_3 ..

theorem byteOf_xor (v w : Word) (j : Nat) : byteOf (v ^^^ w) j = byteOf v j ^^^ byteOf w j :=
  BitVec.extractLsb'_xor

/-- Settles O60: every table is an `ssWord`, and the listed entries are computed. -/
theorem wordTablesAreMaskedSboxes : Obligations.WordTablesAreMaskedSboxes := by
  unfold Obligations.WordTablesAreMaskedSboxes
  refine ⟨fun x j hj => ⟨?_, byteOf_ssWord 1 _ hj, byteOf_ssWord 2 _ hj, byteOf_ssWord 3 _ hj⟩, by decide⟩
  rw [SS0, byteOf_ssWord 0 _ hj, Nat.zero_add]

/-- Settles O50: byte `j` of the exclusive or of the four table words is the exclusive or of their bytes `j`, each a
masked S-box value. -/
theorem gByteForm : Obligations.GByteForm := by
  unfold Obligations.GByteForm
  intro v j hj
  simp only [G, SS0, SS1, SS2, SS3, byteOf_xor, byteOf_ssWord _ _ hj, Nat.zero_add, Nat.add_comm j]

/-! ### The S-boxes (40_substitution R100 to R102) -/

/-- SB1 against its form, entry by entry: R102 gives the form as a check of the printed table. -/
theorem SB1_eq_linearMap_gfPow :
    ∀ x : Byte, SB1 x = linearMap [0x2C, 0xD0, 0x69, 0xC2, 0x41, 0x44, 0x58, 0xE2] (gfPow x 247) ^^^ 0xA9 := by
  decide +kernel

/-- SB2 against its form, entry by entry. -/
theorem SB2_eq_linearMap_gfPow :
    ∀ x : Byte, SB2 x = linearMap [0xD0, 0x2A, 0xE1, 0x2C, 0x21, 0x30, 0xA2, 0x6C] (gfPow x 251) ^^^ 0x38 := by
  decide +kernel

/-- Settles O51: the form of each table. -/
theorem sboxesHaveTheAlgebraicForm : Obligations.SboxesHaveTheAlgebraicForm := by
  unfold Obligations.SboxesHaveTheAlgebraicForm
  exact fun x => ⟨SB1_eq_linearMap_gfPow x, SB2_eq_linearMap_gfPow x⟩

/-- The table of `f` turned round, as one number whose byte `f x` is `x`; where `f` takes a value twice, that byte
mixes the two arguments. -/
def inverseTable (f : Byte → Byte) : Nat :=
  (List.range 256).foldl (fun table x => table ||| x <<< (8 * (f (BitVec.ofNat 8 x)).toNat)) 0

/-- Byte `y` of such a number. -/
def inverseEntry (table : Nat) (y : Byte) : Byte := BitVec.ofNat 8 (table >>> (8 * y.toNat))

theorem inverseEntry_SB1 : ∀ x : Byte, inverseEntry (inverseTable SB1) (SB1 x) = x := by decide +kernel

theorem inverseEntry_SB2 : ∀ x : Byte, inverseEntry (inverseTable SB2) (SB2 x) = x := by decide +kernel

/-- Settles O52: a map of a finite set to itself that can be undone is a bijection. -/
theorem sboxesArePermutations : Obligations.SboxesArePermutations := by
  unfold Obligations.SboxesArePermutations
  exact ⟨Finite.injective_iff_bijective.mp (Function.LeftInverse.injective inverseEntry_SB1),
    Finite.injective_iff_bijective.mp (Function.LeftInverse.injective inverseEntry_SB2)⟩

end Sys2Proof.Machine

/-! The key schedule: the round constants, the rotations of the key words as rotations of 64-bit values, the emission
order, and the key that the command expands (41_key_schedule R120 to R128). -/

namespace Sys2Proof.Machine

/-! ### The round constants (41_key_schedule R120) -/

/-- Settles O53: each listed constant is computed, and the list is the model's table. -/
theorem roundConstantsAreRotations : Obligations.RoundConstantsAreRotations := by
  unfold Obligations.RoundConstantsAreRotations
  refine ⟨rfl, fun i hpos hle => ?_, rfl⟩
  interval_cases i <;> rfl

/-! ### Rotations of bit vectors -/

/-- A rotation right moves bit `r + i` to place `i`, counting round the end. -/
theorem getLsbD_rotateRight_mod {n : Nat} (x : BitVec n) (r : Nat) {i : Nat} (hi : i < n) :
    (x.rotateRight r).getLsbD i = x.getLsbD ((r + i) % n) := by
  have hr : r % n < n := Nat.mod_lt r (by omega)
  rw [BitVec.getLsbD_rotateRight, ← Nat.mod_add_mod r n i]
  by_cases h : i < n - r % n
  · rw [Nat.mod_eq_of_lt (a := r % n + i) (by omega)]
    simp only [h, decide_true, cond_true]
  · rw [Nat.mod_eq_sub_mod (a := r % n + i) (by omega), Nat.mod_eq_of_lt (a := r % n + i - n) (by omega)]
    simp only [h, hi, decide_false, decide_true, cond_false, Bool.true_and]
    congr 1
    omega

/-- A rotation left moves bit `i` to place `r + i`, counting round the end. -/
theorem getLsbD_rotateLeft_mod {n : Nat} (x : BitVec n) (r : Nat) {i : Nat} (hi : i < n) :
    (x.rotateLeft r).getLsbD ((r + i) % n) = x.getLsbD i := by
  have hr : r % n < n := Nat.mod_lt r (by omega)
  rw [BitVec.getLsbD_rotateLeft, ← Nat.mod_add_mod r n i]
  by_cases h : r % n + i < n
  · simp [Nat.mod_eq_of_lt h, h]
  · rw [Nat.mod_eq_sub_mod (a := r % n + i) (by omega), Nat.mod_eq_of_lt (a := r % n + i - n) (by omega),
      decide_eq_true (by omega), cond_true]
    congr 1
    omega

theorem rotateRight_rotateRight {n : Nat} (x : BitVec n) (r q : Nat) :
    (x.rotateRight r).rotateRight q = x.rotateRight (r + q) := by
  apply BitVec.eq_of_getLsbD_eq
  intro i hi
  rw [getLsbD_rotateRight_mod _ _ hi, getLsbD_rotateRight_mod _ _ (Nat.mod_lt _ (by omega)),
    getLsbD_rotateRight_mod _ _ hi, Nat.add_mod_mod, Nat.add_assoc]

theorem rotateRight_rotateLeft {n : Nat} (x : BitVec n) (r : Nat) : (x.rotateLeft r).rotateRight r = x := by
  apply BitVec.eq_of_getLsbD_eq
  intro i hi
  rw [getLsbD_rotateRight_mod _ _ hi, getLsbD_rotateLeft_mod _ _ hi]

theorem rotateRight_zero {n : Nat} (x : BitVec n) : x.rotateRight 0 = x := by
  simp [BitVec.rotateRight_def]

theorem rotateRight_width {n : Nat} (x : BitVec n) : x.rotateRight n = x := by
  apply BitVec.eq_of_getLsbD_eq
  intro i hi
  rw [getLsbD_rotateRight_mod _ _ hi, Nat.add_mod_left, Nat.mod_eq_of_lt hi]

theorem rotateLeft_eq_rotateRight {n r : Nat} (x : BitVec n) (hr : r ≤ n) :
    x.rotateLeft r = x.rotateRight (n - r) :=
  calc x.rotateLeft r
    _ = ((x.rotateLeft r).rotateRight r).rotateRight (n - r) := by
      rw [rotateRight_rotateRight, Nat.add_sub_cancel' hr, rotateRight_width]
    _ = x.rotateRight (n - r) := by rw [rotateRight_rotateLeft]

/-! ### Rotations of a pair of words -/

theorem append_inj {v w : Nat} {a c : BitVec v} {b d : BitVec w} (h : a ++ b = c ++ d) : a = c ∧ b = d := by
  constructor
  · rw [← BitVec.extractLsb'_append_eq_left (a := a) (b := b), h, BitVec.extractLsb'_append_eq_left]
  · rw [← BitVec.extractLsb'_append_eq_right (a := a) (b := b), h, BitVec.extractLsb'_append_eq_right]

/-- A word shifted right with another word's low bits shifted in at the top. -/
theorem getLsbD_shiftIn {w r i : Nat} (a b : BitVec w) (hr : r ≤ w) (hi : i < w) :
    (a >>> r ||| b <<< (w - r)).getLsbD i = if r + i < w then a.getLsbD (r + i) else b.getLsbD (r + i - w) := by
  simp only [BitVec.getLsbD_or, BitVec.getLsbD_ushiftRight, BitVec.getLsbD_shiftLeft]
  split_ifs with h
  · have hlow : i < w - r := by omega
    simp [hlow]
  · have hlow : ¬ i < w - r := by omega
    rw [BitVec.getLsbD_of_ge a _ (by omega), show i - (w - r) = r + i - w by omega]
    simp [hi, hlow]

/-- Each word of a rotated pair takes in at the top the bits that leave the other word. -/
theorem rotateRight_append {w r : Nat} (a b : BitVec w) (hr : r ≤ w) :
    (a ++ b).rotateRight r = (a >>> r ||| b <<< (w - r)) ++ (b >>> r ||| a <<< (w - r)) := by
  apply BitVec.eq_of_getLsbD_eq
  intro i hi
  rw [getLsbD_rotateRight_mod _ _ hi, BitVec.getLsbD_append, BitVec.getLsbD_append]
  by_cases hlow : i < w
  · rw [if_pos hlow, getLsbD_shiftIn _ _ hr hlow, Nat.mod_eq_of_lt (by omega)]
  · rw [if_neg hlow, getLsbD_shiftIn _ _ hr (by omega)]
    by_cases hround : r + i < w + w
    · rw [Nat.mod_eq_of_lt hround, if_neg (by omega), if_pos (by omega), Nat.add_sub_assoc (by omega)]
    · rw [Nat.mod_eq_sub_mod (by omega), Nat.mod_eq_of_lt (by omega), if_pos (by omega), if_neg (by omega)]
      congr 1
      omega

/-- A rotation by a word's width swaps the words of a pair. -/
theorem rotateRight_append_swap {w : Nat} (a b : BitVec w) : (a ++ b).rotateRight w = b ++ a := by
  simp [rotateRight_append, BitVec.ushiftRight_eq_zero]

theorem rotateLeft_append {w r : Nat} (a b : BitVec w) (hr : r ≤ w) :
    (a ++ b).rotateLeft r = (a <<< r ||| b >>> (w - r)) ++ (b <<< r ||| a >>> (w - r)) :=
  calc (a ++ b).rotateLeft r
    _ = (a ++ b).rotateRight (w + (w - r)) := by
      rw [rotateLeft_eq_rotateRight _ (by omega), Nat.add_sub_assoc hr]
    _ = (b ++ a).rotateRight (w - r) := by rw [← rotateRight_rotateRight, rotateRight_append_swap]
    _ = (a <<< r ||| b >>> (w - r)) ++ (b <<< r ||| a >>> (w - r)) := by
      rw [rotateRight_append _ _ (by omega), Nat.sub_sub_self hr, BitVec.or_comm, BitVec.or_comm (_ >>> _)]

/-- Four words are two pairs of words. -/
theorem eq_of_append_eq {p q : Quad} (hfirst : p.w0 ++ p.w1 = q.w0 ++ q.w1) (hsecond : p.w2 ++ p.w3 = q.w2 ++ q.w3) :
    p = q := by
  obtain ⟨h0, h1⟩ := append_inj hfirst
  obtain ⟨h2, h3⟩ := append_inj hsecond
  cases p
  cases q
  exact (Quad.mk.injEq ..).mpr ⟨h0, h1, h2, h3⟩

/-! ### The rotation of a round (41_key_schedule R123, R128) -/

theorem rotateKey_even {i : Nat} (h : i % 2 = 0) (k : Quad) :
    (rotateKey i k).w0 ++ (rotateKey i k).w1 = (k.w0 ++ k.w1).rotateRight 8 ∧
      (rotateKey i k).w2 = k.w2 ∧ (rotateKey i k).w3 = k.w3 := by
  rw [rotateKey, if_pos h]
  exact ⟨(rotateRight_append k.w0 k.w1 (by decide)).symm, rfl, rfl⟩

theorem rotateKey_odd {i : Nat} (h : i % 2 = 1) (k : Quad) :
    (rotateKey i k).w2 ++ (rotateKey i k).w3 = (k.w2 ++ k.w3).rotateLeft 8 ∧
      (rotateKey i k).w0 = k.w0 ∧ (rotateKey i k).w1 = k.w1 := by
  rw [rotateKey, if_neg (by omega)]
  exact ⟨(rotateLeft_append k.w2 k.w3 (by decide)).symm, rfl, rfl⟩

/-- Settles O54: a rotation of 64 bits moves bits between the two words as the model's shifts do. -/
theorem keyRotationIsA64BitRotation : Obligations.KeyRotationIsA64BitRotation := by
  unfold Obligations.KeyRotationIsA64BitRotation
  exact fun i k => ⟨fun h => rotateKey_even h k, fun h => rotateKey_odd h k, rfl, rfl⟩

theorem keyWordsAt_two_mul_succ (n : Nat) (k : Quad) :
    keyWordsAt (2 * (n + 1)) k = rotateKey (2 * n + 1) (rotateKey (2 * n) (keyWordsAt (2 * n) k)) := rfl

/-- After `n` even and `n` odd rounds the first pair is `8n` bits right of its start, and the second pair's start is
`8n` bits right of it. -/
theorem keyWordsAt_two_mul (n : Nat) (k : Quad) :
    (keyWordsAt (2 * n) k).w0 ++ (keyWordsAt (2 * n) k).w1 = (k.w0 ++ k.w1).rotateRight (8 * n) ∧
      ((keyWordsAt (2 * n) k).w2 ++ (keyWordsAt (2 * n) k).w3).rotateRight (8 * n) = k.w2 ++ k.w3 := by
  induction n with
  | zero => exact ⟨(rotateRight_zero _).symm, rotateRight_zero _⟩
  | succ n ih =>
    obtain ⟨hfirst, hsecond⟩ := ih
    obtain ⟨heven, heven2, heven3⟩ := rotateKey_even (i := 2 * n) (by omega) (keyWordsAt (2 * n) k)
    obtain ⟨hodd, hodd0, hodd1⟩ :=
      rotateKey_odd (i := 2 * n + 1) (by omega) (rotateKey (2 * n) (keyWordsAt (2 * n) k))
    rw [keyWordsAt_two_mul_succ, hodd0, hodd1, heven, hodd, heven2, heven3, hfirst]
    constructor
    · rw [rotateRight_rotateRight, Nat.mul_succ]
    · rw [Nat.mul_succ, Nat.add_comm (8 * n), ← rotateRight_rotateRight, rotateRight_rotateLeft, hsecond]

/-- Settles O55: after eight rounds of each parity both pairs have been rotated by their whole width. -/
theorem keyWordsReturnAfterSixteenRounds : Obligations.KeyWordsReturnAfterSixteenRounds := by
  unfold Obligations.KeyWordsReturnAfterSixteenRounds
  intro k
  obtain ⟨hfirst, hsecond⟩ := keyWordsAt_two_mul 8 k
  rw [rotateRight_width] at hfirst hsecond
  exact eq_of_append_eq hfirst hsecond

/-! ### Emission order (41_key_schedule R121, R124, R125) -/

/-- The two ways to count rounds, forward from one and back to round 0, agree. -/
theorem keyWordsFrom_keyWordsAt (i n : Nat) (k : Quad) :
    keyWordsFrom i n (keyWordsAt i k) = keyWordsAt (i + n) k := by
  induction n generalizing i with
  | zero => rfl
  | succ n ih => exact (ih (i + 1)).trans (by rw [Nat.add_right_comm, Nat.add_assoc])

theorem keyWordsFrom_zero (n : Nat) (k : Quad) : keyWordsFrom 0 n k = keyWordsAt n k :=
  (keyWordsFrom_keyWordsAt 0 n k).trans (by rw [Nat.zero_add])

/-- A word of the schedule is the emission at its place. -/
theorem getElem_expandKey {k : Quad} {j : Nat} {hj : j < 32} {v : Word}
    (h : (scheduleFrom 0 kcTable k)[j]? = some v) : (expandKey k)[j] = v := by
  simp only [expandKey, Vector.getElem_mk, List.getElem_toArray]
  exact (List.getElem_eq_iff _).mpr h

/-- Settles O56: the emissions of round `i` read the key words after `i` rotations and the constant at `i`. -/
theorem scheduleInEmissionOrder : Obligations.ScheduleInEmissionOrder := by
  unfold Obligations.ScheduleInEmissionOrder
  intro k i h
  have hconst : kcTable[i]'h = KC i := (List.getD_eq_getElem kcTable 0 h).symm
  obtain ⟨hfirst, hsecond⟩ := scheduleFrom_getElem? 0 i kcTable k h
  rw [keyWordsFrom_zero, hconst] at hfirst hsecond
  exact ⟨getElem_expandKey hfirst, getElem_expandKey hsecond⟩

/-! ### The key (41_key_schedule R122) -/

theorem ruleOf_key_sixteen (s : State) :
    ruleOf (.instr (.key 16)) s = (s.sampleKey.setKeyv false).launch .key := by
  rw [ruleOf, acceptKey, if_pos rfl]

theorem derive_quadBytes (k : Quad) : derive (quadBytes k) = expandKey k := by
  rw [derive, quadOfBytes_quadBytes]

/-- Settles O57: acceptance samples the key words into W, and the completion splits W's bytes into these words again;
each of the two bytes is found in its word. -/
theorem keySplitIsTheSampledWords : Obligations.KeySplitIsTheSampledWords := by
  unfold Obligations.KeySplitIsTheSampledWords
  constructor
  · intro s hidle
    refine ⟨_, exec_idle (.key 16) hidle, ?_⟩
    rw [ruleOf_key_sixteen, engineStep_rk, if_pos (State.launch_inflight .key _), ← derive_quadBytes]
    exact ⟨rfl, rfl⟩
  · intro k
    exact ⟨(quadBytes_getElem? k 0 0).trans (unbe32_getElem? k.w0 0),
      (quadBytes_getElem? k 3 3).trans (unbe32_getElem? k.w3 3)⟩

end Sys2Proof.Machine

/-! The Feistel round: what F and a round depend on, and the round as its own inverse (42_round R140, R141, R145). -/

namespace Sys2Proof.Machine

/-- Steps 1 and 2 of F are the only ones that read an operand (R140). -/
theorem F_eq_F_xor_zero (r0 r1 ka kb : Word) : F r0 r1 ka kb = F (r0 ^^^ ka) (r1 ^^^ kb) 0 0 := by
  simp only [F, BitVec.ofNat_eq_ofNat, BitVec.xor_zero]

theorem F_self (ka kb : Word) : F ka kb ka kb = F 0 0 0 0 := by
  rw [F_eq_F_xor_zero, BitVec.xor_self, BitVec.xor_self, BitVec.ofNat_eq_ofNat]

/-- A round reads the round-key file at its offset and the next index alone (R141). -/
theorem feistelRound_congr {rk rk' : RoundKeys} (dst src : Half) (o : Fin 31)
    (hfirst : rk[o.val]'(by omega) = rk'[o.val]'(by omega))
    (hsecond : rk[o.val + 1]'(by omega) = rk'[o.val + 1]'(by omega)) :
    feistelRound rk dst src o = feistelRound rk' dst src o := by
  rw [feistelRound, hfirst, hsecond, ← feistelRound]

/-- Both rounds read the same source half and key words, so F gives them one value, and `xorHalf` cancels it (R145). -/
@[simp] theorem feistelRound_feistelRound (rk : RoundKeys) (dst src : Half) (o : Fin 31) :
    feistelRound rk (feistelRound rk dst src o) src o = dst := by
  rw [feistelRound, feistelRound, xorHalf_xorHalf]

/-- Settles O47: the second exclusive or with the same value of F cancels the first. -/
theorem roundIsItsOwnInverse : Obligations.RoundIsItsOwnInverse := by
  unfold Obligations.RoundIsItsOwnInverse
  exact feistelRound_feistelRound

/-- Settles O49: F combines each operand with its key word first, and a round hands F the two words at its offset. -/
theorem roundReadsItsKeyPairOnly : Obligations.RoundReadsItsKeyPairOnly := by
  unfold Obligations.RoundReadsItsKeyPairOnly
  exact ⟨F_eq_F_xor_zero, F_self, fun _ _ => feistelRound_congr⟩

end Sys2Proof.Machine

/-! The block transforms: the round table as their definition, encryption and decryption as inverses, and the block
restored through the commands (43_block_transform R160 to R165, 44_commands R187). -/

namespace Sys2Proof.Machine

open Sys2Proof.Claims

/-! ### The round table (43_block_transform R164) -/

theorem encryptOffset_val {n : Nat} (hn : n ≤ 16) : (encryptOffset n).val = 2 * (n - 1) :=
  Nat.mod_eq_of_lt (by omega)

theorem decryptOffset_val (n : Nat) : (decryptOffset n).val = 30 - 2 * (n - 1) :=
  Nat.mod_eq_of_lt (by omega)

theorem encryptOffset_eq_decryptOffset {n : Nat} (hpos : 1 ≤ n) (hn : n ≤ 16) :
    encryptOffset n = decryptOffset (17 - n) := by
  apply Fin.ext
  rw [encryptOffset_val hn, decryptOffset_val]
  omega

/-- The offset of encryption's iteration `i` (R161). -/
def encryptPairOffset (i : Fin 8) : Fin 29 := ⟨4 * i.val, by omega⟩

/-- The offset of decryption's iteration `i` (R162). -/
def decryptPairOffset (i : Fin 8) : Fin 29 := ⟨28 - 4 * i.val, by omega⟩

theorem encryptOffsets_eq_map : encryptOffsets = (List.finRange 8).map encryptPairOffset := by decide

theorem decryptOffsets_eq_map : decryptOffsets = (List.finRange 8).map decryptPairOffset := by decide

theorem tableRound_odd (rk : RoundKeys) (offset : Nat → Fin 31) (h : Halves) (i : Nat) :
    tableRound rk offset h (2 * i + 1) =
      { h with left := feistelRound rk h.left h.right (offset (2 * i + 1)) } := if_pos (by omega)

theorem tableRound_even (rk : RoundKeys) (offset : Nat → Fin 31) (h : Halves) (i : Nat) :
    tableRound rk offset h (2 * i + 2) =
      { h with right := feistelRound rk h.right h.left (offset (2 * i + 2)) } := if_neg (by omega)

theorem encryptPair_eq_tableRounds (rk : RoundKeys) (h : Halves) (i : Fin 8) :
    encryptPair rk h (encryptPairOffset i) =
      tableRound rk encryptOffset (tableRound rk encryptOffset h (2 * i.val + 1)) (2 * i.val + 2) := by
  have hfirst : encryptOffset (2 * i.val + 1) = ⟨(encryptPairOffset i).val, by omega⟩ :=
    Fin.ext (by rw [encryptOffset_val (by omega)]; dsimp only [encryptPairOffset]; omega)
  have hsecond : encryptOffset (2 * i.val + 2) = ⟨(encryptPairOffset i).val + 2, by omega⟩ :=
    Fin.ext (by rw [encryptOffset_val (by omega)]; dsimp only [encryptPairOffset]; omega)
  rw [tableRound_odd, tableRound_even, hfirst, hsecond, encryptPair]

theorem decryptPair_eq_tableRounds (rk : RoundKeys) (h : Halves) (i : Fin 8) :
    decryptPair rk h (decryptPairOffset i) =
      tableRound rk decryptOffset (tableRound rk decryptOffset h (2 * i.val + 1)) (2 * i.val + 2) := by
  have hfirst : decryptOffset (2 * i.val + 1) = ⟨(decryptPairOffset i).val + 2, by omega⟩ :=
    Fin.ext (by rw [decryptOffset_val]; dsimp only [decryptPairOffset]; omega)
  have hsecond : decryptOffset (2 * i.val + 2) = ⟨(decryptPairOffset i).val, by omega⟩ :=
    Fin.ext (by rw [decryptOffset_val]; dsimp only [decryptPairOffset]; omega)
  rw [tableRound_odd, tableRound_even, hfirst, hsecond, decryptPair]

/-- A fold over the 16 rounds takes them two by two, an odd round and the even one after it. -/
theorem foldl_sixteenRounds {α : Type} (round : α → Nat → α) (a : α) :
    (List.range' 1 16).foldl round a =
      (List.finRange 8).foldl (fun a i => round (round a (2 * i.val + 1)) (2 * i.val + 2)) a := rfl

theorem encrypt_eq_tableRounds (rk : RoundKeys) (b : Quad) :
    encrypt rk b = joinBlock ((List.range' 1 16).foldl (tableRound rk encryptOffset) (splitBlock b)) := by
  rw [encrypt, encryptOffsets_eq_map, List.foldl_map, foldl_sixteenRounds]
  simp only [encryptPair_eq_tableRounds]

theorem decrypt_eq_tableRounds (rk : RoundKeys) (b : Quad) :
    decrypt rk b = joinBlock ((List.range' 1 16).foldl (tableRound rk decryptOffset) (splitBlock b)) := by
  rw [decrypt, decryptOffsets_eq_map, List.foldl_map, foldl_sixteenRounds]
  simp only [decryptPair_eq_tableRounds]

/-- Settles O48: iteration `i` of a transform is rounds `2i + 1` and `2i + 2` of its table, counting iterations
from 0. -/
theorem transformsFollowTheRoundTable : Obligations.TransformsFollowTheRoundTable := by
  unfold Obligations.TransformsFollowTheRoundTable
  exact ⟨fun rk b => ⟨encrypt_eq_tableRounds rk b, decrypt_eq_tableRounds rk b⟩,
    fun n hpos hn => ⟨encryptOffset_val hn, decryptOffset_val n, encryptOffset_eq_decryptOffset hpos hn⟩⟩

/-! ### The inverse of a transform (43_block_transform R165) -/

/-- The halves as the other direction's split finds them: the join swaps them (R163). -/
def swapHalves (h : Halves) : Halves := ⟨h.right, h.left⟩

theorem splitBlock_joinBlock_eq_swapHalves (h : Halves) : splitBlock (joinBlock h) = swapHalves h :=
  splitBlock_joinBlock h

theorem joinBlock_swapHalves_splitBlock (b : Quad) : joinBlock (swapHalves (splitBlock b)) = b :=
  joinBlock_swap_splitBlock b

/-- An iteration of decryption takes back encryption's last round first, each with its own source half (R145). -/
theorem decryptPair_swapHalves_encryptPair (rk : RoundKeys) (h : Halves) (o : Fin 29) :
    decryptPair rk (swapHalves (encryptPair rk h o)) o = swapHalves h := by
  simp only [decryptPair, encryptPair, swapHalves, feistelRound_feistelRound]

theorem encryptPair_swapHalves_decryptPair (rk : RoundKeys) (h : Halves) (o : Fin 29) :
    encryptPair rk (swapHalves (decryptPair rk h o)) o = swapHalves h := by
  simp only [decryptPair, encryptPair, swapHalves, feistelRound_feistelRound]

/-- Where one iteration undoes the other on swapped halves, the iterations in reverse order undo them all. -/
theorem foldl_reverse_swapHalves_foldl {pair undo : Halves → Fin 29 → Halves}
    (hundo : ∀ h o, undo (swapHalves (pair h o)) o = swapHalves h) (os : List (Fin 29)) (h : Halves) :
    os.reverse.foldl undo (swapHalves (os.foldl pair h)) = swapHalves h := by
  induction os generalizing h with
  | nil => rfl
  | cons o os ih =>
    rw [List.reverse_cons, List.foldl_append, List.foldl_cons (f := pair), ih (pair h o)]
    exact hundo h o

theorem reverse_encryptOffsets : encryptOffsets.reverse = decryptOffsets := rfl

theorem reverse_decryptOffsets : decryptOffsets.reverse = encryptOffsets := rfl

theorem decrypt_encrypt (rk : RoundKeys) (b : Quad) : decrypt rk (encrypt rk b) = b := by
  rw [decrypt, encrypt, splitBlock_joinBlock_eq_swapHalves, ← reverse_encryptOffsets,
    foldl_reverse_swapHalves_foldl (decryptPair_swapHalves_encryptPair rk), joinBlock_swapHalves_splitBlock]

theorem encrypt_decrypt (rk : RoundKeys) (b : Quad) : encrypt rk (decrypt rk b) = b := by
  rw [encrypt, decrypt, splitBlock_joinBlock_eq_swapHalves, ← reverse_decryptOffsets,
    foldl_reverse_swapHalves_foldl (encryptPair_swapHalves_decryptPair rk), joinBlock_swapHalves_splitBlock]

/-- Settles O45: each direction undoes the other's iterations in reverse order, on the halves the join has swapped. -/
theorem encryptAndDecryptAreInverses : Obligations.EncryptAndDecryptAreInverses := by
  unfold Obligations.EncryptAndDecryptAreInverses
  exact fun rk b => ⟨decrypt_encrypt rk b, encrypt_decrypt rk b⟩

/-! ### The inverse through the commands (44_commands R185 to R188) -/

/-- The state in which an accepted ENC or DEC is in flight (R185, R187). -/
def launchTransform (op : Inflight) (s : State) : State := s.clearReport.sampleDin.launch op

theorem acceptTransform_of_keyv {s : State} (op : Inflight) (hkey : s.keyv = true) :
    acceptTransform op s.clearReport = launchTransform op s :=
  if_neg (by rw [State.clearReport_keyv, hkey]; decide)

theorem exec_enc_of_keyv {s : State} (hidle : s.inflight = .none) (hkey : s.keyv = true) :
    exec .enc s = .next (launchTransform .enc s) := by
  rw [exec_idle .enc hidle, ruleOf, acceptTransform_of_keyv .enc hkey]

theorem exec_dec_of_keyv {s : State} (hidle : s.inflight = .none) (hkey : s.keyv = true) :
    exec .dec s = .next (launchTransform .dec s) := by
  rw [exec_idle .dec hidle, ruleOf, acceptTransform_of_keyv .dec hkey]

/-- After ENC the key and its schedule are still there, and DOUT has the encrypted DIN (R186). -/
theorem engineStep_launchTransform_enc (s : State) :
    (engineStep (launchTransform .enc s)).keyv = s.keyv ∧ (engineStep (launchTransform .enc s)).rk = s.rk ∧
      (engineStep (launchTransform .enc s)).dout = encrypt s.rk s.din := by
  rw [engineStep_enc rfl]
  exact ⟨rfl, rfl, rfl⟩

/-- After DEC the report is a success, and DOUT has the decrypted DIN (R188). -/
theorem engineStep_launchTransform_dec (s : State) :
    (engineStep (launchTransform .dec s)).dout = decrypt s.rk s.din ∧
      (engineStep (launchTransform .dec s)).err = 0 ∧ (engineStep (launchTransform .dec s)).done = true := by
  rw [engineStep_dec rfl]
  exact ⟨rfl, rfl, rfl⟩

/-- Settles O46: ENC leaves an idle core with the same schedule, under which DEC undoes it. -/
theorem decOfTheCopiedOutputRestoresTheBlock : Obligations.DecOfTheCopiedOutputRestoresTheBlock := by
  unfold Obligations.DecOfTheCopiedOutputRestoresTheBlock
  intro s hidle hkey
  obtain ⟨hkeyv, hrk, hdout⟩ := engineStep_launchTransform_enc s
  have hrestored :
      decrypt (engineStep (launchTransform .enc s)).rk (engineStep (launchTransform .enc s)).dout = s.din := by
    rw [hrk, hdout, decrypt_encrypt]
  refine ⟨_, _, exec_enc_of_keyv hidle hkey, exec_dec_of_keyv (engineStep_inflight _) (hkeyv.trans hkey), ?_⟩
  exact (engineStep_launchTransform_dec _).imp_left fun hdec => hdec.trans hrestored

end Sys2Proof.Machine

/-! The commands' own rules, each from every idle state: what its acceptance does, what its completion delivers, and the
table of what every command step writes (44_commands R180 to R194). -/

namespace Sys2Proof.Machine

/-! ### STATUS as a function of its fields (10_state R22) -/

/-- The STATUS word of these field values, ERR first and BUSY last. -/
def statusOf (err : BitVec 4) (ovr keyv done busy : Bool) : Word :=
  err.setWidth 32 <<< 4 ||| flagWord ovr <<< 3 ||| flagWord keyv <<< 2 ||| flagWord done <<< 1 ||| flagWord busy

theorem statusWord_eq_statusOf (s : State) : statusWord s = statusOf s.err s.ovr s.keyv s.done s.busy := rfl

theorem busy_eq_false_iff (s : State) : s.busy = false ↔ s.inflight = .none := by simp [State.busy]

theorem busy_engineStep (s : State) : (engineStep s).busy = false :=
  (busy_eq_false_iff _).mpr (engineStep_inflight s)

/-! ### The states an acceptance ends in (44_commands R180) -/

/-- The state after an accepted command that raises an error (60_exceptions R221). -/
def endWithError (code : BitVec 4) (s : State) : State := s.clearReport.raiseError code

/-- The state in which an accepted KEY is in flight (R183). -/
def launchKey (s : State) : State := (s.clearReport.sampleKey.setKeyv false).launch .key

/-- The state in which an accepted WIPE is in flight (R189). -/
def launchWipe (s : State) : State := (s.clearReport.setKeyv false).launch .wipe

/-- The state in which an accepted GSUB is in flight (R191). -/
def launchGsub (s : State) : State := s.clearReport.sampleDin0.launch .gsub

theorem exec_nop_of_idle {s : State} (hidle : s.inflight = .none) : exec .nop s = .next s.clearReport :=
  exec_idle .nop hidle

theorem exec_key_sixteen {s : State} (hidle : s.inflight = .none) : exec (.key 16) s = .next (launchKey s) := by
  rw [exec_idle (.key 16) hidle, ruleOf_key_sixteen, launchKey]

theorem exec_key_of_ne_sixteen {s : State} {len : Nat} (hidle : s.inflight = .none) (hlen : len ≠ 16) :
    exec (.key len) s = .next (endWithError 1 s) := by
  rw [exec_idle (.key len) hidle, ruleOf, acceptKey, if_neg hlen, errInvalidKeyLength, endWithError]

theorem acceptTransform_of_noKey {s : State} (op : Inflight) (hkey : s.keyv = false) :
    acceptTransform op s.clearReport = endWithError 2 s :=
  if_pos hkey

theorem exec_enc_of_noKey {s : State} (hidle : s.inflight = .none) (hkey : s.keyv = false) :
    exec .enc s = .next (endWithError 2 s) := by
  rw [exec_idle .enc hidle, ruleOf, acceptTransform_of_noKey .enc hkey]

theorem exec_dec_of_noKey {s : State} (hidle : s.inflight = .none) (hkey : s.keyv = false) :
    exec .dec s = .next (endWithError 2 s) := by
  rw [exec_idle .dec hidle, ruleOf, acceptTransform_of_noKey .dec hkey]

theorem exec_wipe_of_idle {s : State} (hidle : s.inflight = .none) : exec .wipe s = .next (launchWipe s) :=
  exec_idle .wipe hidle

theorem exec_gsub_of_idle {s : State} (hidle : s.inflight = .none) : exec .gsub s = .next (launchGsub s) :=
  exec_idle .gsub hidle

theorem writeCmd_of_illegal {s : State} {v : Word} {why : IllegalWord} (hidle : s.inflight = .none)
    (hdecode : decode v = .illegal why) : writeCmd v s = .next (endWithError 3 s) := by
  rw [writeCmd_idle v hidle, hdecode, ruleOf, errIllegalCmd, endWithError]

theorem statusWord_clearReport {s : State} (hidle : s.inflight = .none) :
    statusWord s.clearReport = statusOf 0 false s.keyv false false := by
  rw [statusWord_eq_statusOf, (busy_eq_false_iff s.clearReport).mpr hidle]
  rfl

/-- A command that ends with an error shows its code and DONE, never BUSY or OVR, and the KEYV it found. -/
theorem statusWord_endWithError {s : State} (hidle : s.inflight = .none) (code : BitVec 4) :
    statusWord (endWithError code s) = statusOf code false s.keyv true false := by
  rw [statusWord_eq_statusOf, (busy_eq_false_iff (endWithError code s)).mpr hidle]
  rfl

theorem statusWord_launchKey (s : State) : statusWord (launchKey s) = statusOf 0 false false false true := rfl

theorem statusWord_launchWipe (s : State) : statusWord (launchWipe s) = statusOf 0 false false false true := rfl

theorem statusWord_launchGsub (s : State) : statusWord (launchGsub s) = statusOf 0 false s.keyv false true := rfl

/-! ### The state each completion leaves, from the idle state the command found (44_commands R184 to R192) -/

theorem engineStep_launchKey {s : State} (hidle : s.inflight = .none) :
    engineStep (launchKey s) = { s with
      done := true, err := 0, ovr := false, w := s.key, key := ⟨0, 0, 0, 0⟩, keyv := true,
      rk := derive (quadBytes s.key) } := by
  rw [hidle]
  exact engineStep_key rfl

theorem engineStep_launchEnc {s : State} (hidle : s.inflight = .none) :
    engineStep (launchTransform .enc s) = { s with
      done := true, err := 0, ovr := false, w := s.din, dout := encrypt s.rk s.din } := by
  rw [hidle]
  exact engineStep_enc rfl

theorem engineStep_launchDec {s : State} (hidle : s.inflight = .none) :
    engineStep (launchTransform .dec s) = { s with
      done := true, err := 0, ovr := false, w := s.din, dout := decrypt s.rk s.din } := by
  rw [hidle]
  exact engineStep_dec rfl

theorem engineStep_launchWipe {s : State} (hidle : s.inflight = .none) :
    engineStep (launchWipe s) = { s with
      done := true, err := 0, ovr := false, keyv := false, rk := Vector.replicate 32 0 } := by
  rw [hidle]
  exact engineStep_wipe rfl

theorem engineStep_launchGsub {s : State} (hidle : s.inflight = .none) :
    engineStep (launchGsub s) = { s with
      done := true, err := 0, ovr := false, w := ⟨s.din.w0, s.w.w1, s.w.w2, s.w.w3⟩,
      dout := ⟨G s.din.w0, 0, 0, 0⟩ } := by
  rw [hidle]
  exact engineStep_gsub rfl

/-- Settles O27: each command is launched from the idle state, and its completion is computed from the state it is
launched in. -/
theorem engineCommandsDeliverTheirResult : Obligations.EngineCommandsDeliverTheirResult := by
  unfold Obligations.EngineCommandsDeliverTheirResult
  intro s hidle
  exact ⟨⟨_, exec_key_sixteen hidle, engineStep_launchKey hidle⟩,
    fun hkey => ⟨_, exec_enc_of_keyv hidle hkey, engineStep_launchEnc hidle⟩,
    fun hkey => ⟨_, exec_dec_of_keyv hidle hkey, engineStep_launchDec hidle⟩,
    ⟨_, exec_wipe_of_idle hidle, engineStep_launchWipe hidle⟩,
    ⟨_, exec_gsub_of_idle hidle, engineStep_launchGsub hidle⟩⟩

/-! ### The table of writes (44_commands R194) -/

/-- Settles O26: a dropped write sets OVR; an accepted one ends with an error, or with the report clear and the column of
its rule; a completion is known element by element; no step stores an identity word. -/
theorem commandStepsWriteOnlyTheirColumn : Obligations.CommandStepsWriteOnlyTheirColumn := by
  unfold Obligations.CommandStepsWriteOnlyTheirColumn
  refine ⟨fun s v hbusy => writeCmd_busy v hbusy, fun s t v hidle h => ?_, fun s hbusy => ?_, fun _ _ _ => rfl⟩
  · cases (writeCmd_idle v hidle).symm.trans h
    obtain ⟨hdin, hdout, hrk, hrdata, hinputs⟩ := writeCmd_frame h
    refine ⟨hdin, hdout, hrk, hrdata, hinputs, ruleOf_ovr _ _, ?_⟩
    rcases ruleOf_cases (decode v) s.clearReport with
      ⟨code, hcode, e⟩ | ⟨hd, e⟩ | ⟨hd, e⟩ | ⟨hd, -, e⟩ | ⟨hd, -, e⟩ | ⟨hd, e⟩ | ⟨hd, e⟩ <;> rw [e]
    · have hne : code ≠ 0 := by rcases hcode with rfl | rfl | rfl <;> decide
      exact ⟨.inl ⟨rfl, hne⟩, fun _ => ⟨hidle, rfl, rfl, rfl⟩, fun h => absurd h hne⟩
    · exact ⟨.inr ⟨rfl, rfl⟩, absurd rfl, fun _ => .inl ⟨hd, hidle, rfl, rfl, rfl⟩⟩
    · exact ⟨.inr ⟨rfl, rfl⟩, absurd rfl, fun _ => .inr (.inl ⟨hd, rfl, rfl, rfl, rfl⟩)⟩
    · exact ⟨.inr ⟨rfl, rfl⟩, absurd rfl, fun _ => .inr (.inr (.inl ⟨hd, rfl, rfl, rfl, rfl⟩))⟩
    · exact ⟨.inr ⟨rfl, rfl⟩, absurd rfl, fun _ => .inr (.inr (.inr (.inl ⟨hd, rfl, rfl, rfl, rfl⟩)))⟩
    · exact ⟨.inr ⟨rfl, rfl⟩, absurd rfl, fun _ => .inr (.inr (.inr (.inr (.inl ⟨hd, rfl, rfl, rfl, rfl⟩))))⟩
    · exact ⟨.inr ⟨rfl, rfl⟩, absurd rfl, fun _ => .inr (.inr (.inr (.inr (.inr ⟨hd, rfl, rfl, rfl, rfl⟩))))⟩
  · obtain ⟨herr, hovr, hkey, hdin, hw, hrdata⟩ := engineStep_frame s
    exact ⟨engineStep_inflight s, (engineStep_done s).trans (if_neg hbusy), herr, hovr, hw, hkey, hdin, hrdata,
      engineStep_inputs s, engineStep_keyv s, engineStep_rk s, engineStep_dout s⟩

/-! ### The engine reads no host register (44_commands R181, 70_reset R258) -/

theorem engineStep_withKeyAndDin (s : State) (key din : Quad) :
    engineStep { s with key := key, din := din } = { engineStep s with key := key, din := din } := by
  cases s with
  | mk inflight => cases inflight <;> rfl

theorem engineStep_setKeyWord (j : Fin 4) (v : Word) (s : State) :
    engineStep (s.setKeyWord j v) = (engineStep s).setKeyWord j v := by
  rw [State.setKeyWord, State.setKeyWord, engineStep_keyRegisters, engineStep_withKey]

theorem engineStep_setDinWord (j : Fin 4) (v : Word) (s : State) :
    engineStep (s.setDinWord j v) = (engineStep s).setDinWord j v := by
  rw [State.setDinWord, State.setDinWord, engineStep_din]
  exact (engineStep_withKeyAndDin s s.key _).trans (by rw [← engineStep_keyRegisters s])

/-- A write of a register other than CMD acts alike before and after the completion. -/
theorem writeReg_engineStep {r : PortReg} (hcmd : r ≠ .cmd) {v : Word} {s t : State}
    (h : writeReg r v s = .next t) : writeReg r v (engineStep s) = .next (engineStep t) := by
  cases r with
  | id j => cases h; rfl
  | status => cases h; rfl
  | cmd => exact absurd rfl hcmd
  | key j => cases h; rw [engineStep_setKeyWord]; rfl
  | din j => cases h; rw [engineStep_setDinWord]; rfl
  | dout j => cases h; rfl

/-- Settles O37: the engine's step commutes with any change of KEY and DIN, which is all a write outside CMD makes. -/
theorem engineReadsOnlySampledOperands : Obligations.EngineReadsOnlySampledOperands := by
  unfold Obligations.EngineReadsOnlySampledOperands
  refine ⟨fun s rest h => step_cons h, fun s hidle => engineStep_none hidle, engineStep_withKeyAndDin, ?_⟩
  intro s t idx v hidx h
  cases hr : slotAt idx with
  | none =>
    cases (portWrite_of_reserved hr v s).symm.trans h
    exact portWrite_of_reserved hr v (engineStep s)
  | some r =>
    have hcmd : r ≠ .cmd := fun hc => hidx ((slotAt_cmd_iff idx).mp (hc ▸ hr))
    rw [portWrite_of_slotAt hr] at h ⊢
    exact writeReg_engineStep hcmd h

/-! ### NOP (44_commands R182) -/

/-- Settles O14: the cleared state is idle too, and a STATUS of 0x16 is that of an idle core with a key. -/
theorem nopClearsTheReport : Obligations.NopClearsTheReport := by
  unfold Obligations.NopClearsTheReport
  refine ⟨rfl, fun s hidle => ⟨exec_nop_of_idle hidle, engineStep_none (s := s.clearReport) hidle⟩,
    fun s hbusy => exec_busy .nop hbusy, fun s h => ?_⟩
  obtain ⟨hbusy, -, hkeyv, -⟩ := statusWordLayout s
  rw [h] at hbusy hkeyv
  have hidle : s.inflight = .none := (busy_eq_false_iff s).mp hbusy.symm
  refine ⟨_, exec_nop_of_idle hidle, ?_⟩
  rw [statusWord_clearReport hidle, ← hkeyv]
  decide

/-! ### KEY (44_commands R183, R184) -/

theorem toNat_commandWord (op : BitVec 4) (len : BitVec 8) :
    (commandWord op len).toNat = len.toNat * 256 + op.toNat := by
  have hop := op.isLt
  have hlen := len.isLt
  simp only [commandWord, BitVec.toNat_or, BitVec.toNat_shiftLeft, BitVec.toNat_setWidth]
  rw [Nat.mod_eq_of_lt (a := len.toNat) (by omega), Nat.mod_eq_of_lt (a := op.toNat) (by omega),
    Nat.mod_eq_of_lt (by omega), ← Nat.shiftLeft_add_eq_or_of_lt (by omega), Nat.shiftLeft_eq]

theorem encode_key {len : Nat} (hlen : len < 256) : encode (.key len) = BitVec.ofNat 32 (len * 256 + 1) := by
  apply BitVec.eq_of_toNat_eq
  rw [encode, toNat_commandWord, BitVec.toNat_ofNat, BitVec.toNat_ofNat, Nat.mod_eq_of_lt hlen,
    Nat.mod_eq_of_lt (by omega)]
  rfl

/-- Settles O15: LEN is 16 and KEY is launched, or the command ends with code 1. -/
theorem keyAcceptanceChecksTheLength : Obligations.KeyAcceptanceChecksTheLength := by
  unfold Obligations.KeyAcceptanceChecksTheLength
  refine ⟨fun len hlen => encode_key hlen, fun s hidle => exec_key_sixteen hidle,
    fun s len hidle _ hne => exec_key_of_ne_sixteen hidle hne, fun s hidle hkey => ⟨?_, ?_⟩⟩
  · refine ⟨_, exec_key_of_ne_sixteen hidle (by decide), ?_⟩
    rw [statusWord_endWithError hidle, hkey]
    decide
  · exact ⟨_, exec_key_sixteen hidle, (statusWord_launchKey s).trans (by decide)⟩

/-- The first round of the schedule of the zero key (95_test_vectors, vector B.1). -/
theorem derive_zeroKey_firstRound :
    (derive (quadBytes ⟨0, 0, 0, 0⟩))[0] = 0x7C8F8C7E ∧ (derive (quadBytes ⟨0, 0, 0, 0⟩))[1] = 0xC737A22C := by
  decide +kernel

/-- Settles O16: the completion of a KEY launched from an idle state derives the schedule of its key registers. -/
theorem keyCompletionDerivesTheSchedule : Obligations.KeyCompletionDerivesTheSchedule := by
  unfold Obligations.KeyCompletionDerivesTheSchedule
  refine ⟨fun s h => engineStep_key h, fun s hidle hzero => ⟨_, exec_key_sixteen hidle, ?_⟩⟩
  have hstatus : statusWord (engineStep (launchKey s)) = statusOf 0 false true true false := by
    rw [statusWord_eq_statusOf, busy_engineStep, engineStep_launchKey hidle]
  obtain ⟨hfirst, hsecond⟩ := derive_zeroKey_firstRound
  rw [← hzero] at hfirst hsecond
  refine ⟨?_, ?_, hstatus.trans (by decide)⟩
  · simpa only [engineStep_launchKey hidle] using hfirst
  · simpa only [engineStep_launchKey hidle] using hsecond

/-! ### ENC and DEC (44_commands R185 to R188) -/

theorem statusWord_noKey {s : State} (hidle : s.inflight = .none) (hkey : s.keyv = false) :
    statusWord (endWithError 2 s) = 0x22 := by
  rw [statusWord_endWithError hidle, hkey]
  decide

/-- Settles O17: with a key ENC is launched, without one it ends with code 2. -/
theorem encAcceptanceNeedsAKey : Obligations.EncAcceptanceNeedsAKey := by
  unfold Obligations.EncAcceptanceNeedsAKey
  exact ⟨rfl, fun s hidle hkey => exec_enc_of_keyv hidle hkey, fun s hidle hkey =>
    ⟨exec_enc_of_noKey hidle hkey, _, exec_enc_of_noKey hidle hkey, statusWord_noKey hidle hkey⟩⟩

/-- Settles O19: with a key DEC is launched, without one it ends with code 2. -/
theorem decAcceptanceNeedsAKey : Obligations.DecAcceptanceNeedsAKey := by
  unfold Obligations.DecAcceptanceNeedsAKey
  exact ⟨rfl, fun s hidle hkey => exec_dec_of_keyv hidle hkey, fun s hidle hkey =>
    ⟨exec_dec_of_noKey hidle hkey, _, exec_dec_of_noKey hidle hkey, statusWord_noKey hidle hkey⟩⟩

/-- Vector B.1 of 95_test_vectors: the zero key and the block 00 01 … 0F. -/
theorem encrypt_zeroKey :
    encrypt (derive (List.replicate 16 0)) ⟨0x00010203, 0x04050607, 0x08090A0B, 0x0C0D0E0F⟩ =
      ⟨0x5EBAC6E0, 0x054E1668, 0x19AFF1CC, 0x6D346CDB⟩ := by
  decide +kernel

/-- Settles O18: the completion encrypts the DIN sampled at acceptance, here vector B.1's. -/
theorem encCompletionEncryptsW : Obligations.EncCompletionEncryptsW := by
  unfold Obligations.EncCompletionEncryptsW
  refine ⟨fun s h => engineStep_enc h, fun s hidle hkey hrk hdin => ⟨_, exec_enc_of_keyv hidle hkey, ?_⟩⟩
  rw [engineStep_launchEnc hidle, hrk, hdin]
  exact encrypt_zeroKey

/-- Settles O20: the completion decrypts the DIN sampled at acceptance, and decryption inverts vector B.1. -/
theorem decCompletionDecryptsW : Obligations.DecCompletionDecryptsW := by
  unfold Obligations.DecCompletionDecryptsW
  refine ⟨fun s h => engineStep_dec h, fun s hidle hkey hrk hdin => ⟨_, exec_dec_of_keyv hidle hkey, ?_⟩⟩
  rw [engineStep_launchDec hidle, hrk, hdin, ← encrypt_zeroKey]
  exact decrypt_encrypt _ _

/-! ### WIPE (44_commands R189, R190) -/

/-- Settles O21: WIPE is launched from every idle state, whatever KEYV was. -/
theorem wipeAcceptanceClearsKeyv : Obligations.WipeAcceptanceClearsKeyv := by
  unfold Obligations.WipeAcceptanceClearsKeyv
  exact ⟨rfl, fun s hidle => ⟨exec_wipe_of_idle hidle, _, exec_wipe_of_idle hidle,
    (statusWord_launchWipe s).trans (by decide)⟩⟩

/-- Settles O22: the completion stores 32 zeros and leaves an idle core without a key, where ENC ends with code 2. -/
theorem wipeCompletionZeroesTheSchedule : Obligations.WipeCompletionZeroesTheSchedule := by
  unfold Obligations.WipeCompletionZeroesTheSchedule
  refine ⟨fun s h => ⟨engineStep_wipe h, fun i hi => ?_⟩, fun s hidle => ?_⟩
  · simp only [engineStep_wipe h, State.finish_rk, completeWipe, State.setRoundKeys_rk, Vector.getElem_replicate]
  · have hkey : (engineStep (launchWipe s)).keyv = false := by rw [engineStep_launchWipe hidle]
    have hidle' : (engineStep (launchWipe s)).inflight = .none := engineStep_inflight _
    have hstatus : statusWord (engineStep (launchWipe s)) = statusOf 0 false false true false := by
      rw [statusWord_eq_statusOf, busy_engineStep, engineStep_launchWipe hidle]
    exact ⟨_, _, exec_wipe_of_idle hidle, hstatus.trans (by decide), exec_enc_of_noKey hidle' hkey,
      statusWord_noKey hidle' hkey⟩

/-! ### GSUB (44_commands R191, R192) -/

/-- Settles O23: GSUB is launched from every idle state, and STATUS keeps KEYV. -/
theorem gsubAcceptanceSamplesDin0 : Obligations.GsubAcceptanceSamplesDin0 := by
  unfold Obligations.GsubAcceptanceSamplesDin0
  refine ⟨rfl, fun s hidle => ⟨exec_gsub_of_idle hidle, _, exec_gsub_of_idle hidle, ?_⟩⟩
  rw [statusWord_launchGsub]
  cases s.keyv <;> decide

theorem G_zero : G 0 = 0xB829B829 := by decide +kernel

/-- The worked example of R192. -/
theorem G_0x01234567 : G 0x01234567 = 0x27E4246B := by decide +kernel

/-- Settles O24: the completion substitutes the DIN0 sampled at acceptance. -/
theorem gsubCompletionWritesG : Obligations.GsubCompletionWritesG := by
  unfold Obligations.GsubCompletionWritesG
  refine ⟨fun s h => engineStep_gsub h, G_zero, fun s hidle hdin => ⟨_, exec_gsub_of_idle hidle, ?_⟩⟩
  rw [engineStep_launchGsub hidle, hdin, G_0x01234567]

/-! ### ILLEGAL words (44_commands R193) -/

/-- Settles O25: an ILLEGAL word ends with code 3; LEN 1 under KEY's opcode is a KEY, which ends with code 1. -/
theorem illegalWordEndsWithItsCode : Obligations.IllegalWordEndsWithItsCode := by
  unfold Obligations.IllegalWordEndsWithItsCode
  have hkey : decode 0x00000101 = .instr (.key 1) := decode_commandWord_key 1
  refine ⟨?_, ⟨.lenOutsideKey, by decide⟩, hkey, fun s hidle => ?_,
    ⟨_, decode_commandWord_opcode (op := 6) (by decide)⟩⟩
  · rintro s v hidle ⟨why, hwhy⟩
    have h : writeCmd v s = .next (endWithError 3 s) := writeCmd_of_illegal hidle hwhy
    refine ⟨h, _, h, ?_⟩
    rw [statusWord_endWithError hidle]
    cases s.keyv <;> decide
  · refine ⟨endWithError 1 s, ?_, rfl⟩
    rw [writeCmd, hkey]
    exact exec_key_of_ne_sixteen hidle (by decide)

end Sys2Proof.Machine

/-! Errors and the report (60_exceptions R220 to R225): the ERR code of every CMD write, what holds the report, the two
orders of a CMD write and a completion, and the turns that are refused. -/

namespace Sys2Proof.Machine

open Sys2Proof.Claims

/-! ### The code an accepted word ends with (60_exceptions R220, R223) -/

/-- ERR after the acceptance of a word, from the word and KEYV: the first check that applies (R223). -/
def errOf (keyv : Bool) : Decoded → BitVec 4
  | .illegal _ => 3
  | .instr (.key len) => if len = 16 then 0 else 1
  | .instr .enc => if keyv = false then 2 else 0
  | .instr .dec => if keyv = false then 2 else 0
  | .instr .nop => 0
  | .instr .wipe => 0
  | .instr .gsub => 0

theorem acceptTransform_err (op : Inflight) (s : State) :
    (acceptTransform op s).err = if s.keyv = false then 2 else s.err := by
  unfold acceptTransform
  split <;> rfl

theorem ruleOf_clearReport_err (d : Decoded) (s : State) : (ruleOf d s.clearReport).err = errOf s.keyv d := by
  cases d with
  | illegal why => rfl
  | instr i =>
    cases i with
    | nop | wipe | gsub => rfl
    | key len =>
      by_cases hlen : len = 16 <;> simp [ruleOf, acceptKey, errOf, errInvalidKeyLength, hlen]
    | enc => exact acceptTransform_err .enc s.clearReport
    | dec => exact acceptTransform_err .dec s.clearReport

/-- The rule of a word ends with an error, or leaves ERR clear (R222). -/
theorem ruleOf_clearReport_error_or_clear (d : Decoded) (s : State) :
    (∃ code, ruleOf d s.clearReport = endWithError code s) ∨ (ruleOf d s.clearReport).err = 0 := by
  rcases ruleOf_cases d s.clearReport with
    ⟨code, -, e⟩ | ⟨-, e⟩ | ⟨-, e⟩ | ⟨-, -, e⟩ | ⟨-, -, e⟩ | ⟨-, e⟩ | ⟨-, e⟩
  · exact .inl ⟨code, e⟩
  all_goals exact .inr (by rw [e]; rfl)

theorem engineStep_err (s : State) : (engineStep s).err = s.err := by
  obtain ⟨herr, -⟩ := engineStep_frame s
  exact herr

/-- Settles O28: an accepted word ends with an error, which is the report and nothing else, or with ERR 0; a completion
keeps ERR. -/
theorem errorsAreAtomic : Obligations.ErrorsAreAtomic := by
  unfold Obligations.ErrorsAreAtomic
  refine ⟨fun s t v hidle h herr => ?_, engineStep_err⟩
  cases (writeCmd_idle v hidle).symm.trans h
  rcases ruleOf_clearReport_error_or_clear (decode v) s with ⟨code, hcode⟩ | hclear
  · rw [hcode]
    exact ⟨rfl, (busy_eq_false_iff _).mpr hidle⟩
  · exact absurd hclear herr

/-! ### A CMD write and a completion in either order (60_exceptions R223) -/

/-- A cycle with rst = 1 and not both enables is the Reset step, whatever it carries (70_reset R250). -/
theorem portCycle_reset {sig : Signals} (s : State) (hrst : sig.rst = true)
    (henables : ¬(sig.rdEn = true ∧ sig.wrEn = true)) : portCycle sig s = .next (resetCore s) := by
  rw [portCycle, if_neg henables, if_pos hrst]

/-- The engine's turn is its step (44_commands R181). -/
theorem step_engine {s : State} {rest : List Event} (h : s.inputs = .engine :: rest) :
    step s = .next (engineStep (s.setInputs rest)) := step_cons h

/-- The turn of a CMD write is the CMD write (20_memory R55). -/
theorem step_cmdEvent {s : State} {v : Word} {rest : List Event} (h : s.inputs = cmdEvent v :: rest) :
    step s = writeCmd v (taken s rest) :=
  calc step s = portCycle (Signals.write PortReg.cmd.index v) (s.setInputs rest) := step_cons h
    _ = portWrite PortReg.cmd.index v (taken s rest) := portCycle_write _ v (s.setInputs rest)
    _ = writeCmd v (taken s rest) := portWrite_of_slotAt (slotAt_index .cmd) v (taken s rest)

/-- The completion first: the CMD write finds the completed state. -/
theorem run_engine_cmdEvent {s : State} {v : Word} {rest : List Event}
    (h : s.inputs = .engine :: cmdEvent v :: rest) :
    Host.Core.run core 2 s = writeCmd v (taken (engineStep s) rest) := by
  have hfirst : step s = .next ((engineStep s).setInputs (cmdEvent v :: rest)) := by
    rw [step_engine h, engineStep_setInputs]
  have hsecond : step ((engineStep s).setInputs (cmdEvent v :: rest)) = writeCmd v (taken (engineStep s) rest) :=
    step_cmdEvent rfl
  rw [writeCmd_eq_accept] at hsecond ⊢
  exact (run_succ (M := core) 1 hfirst).trans (run_succ (M := core) 0 hsecond)

/-- The CMD write first: it is dropped, and the command in flight completes. -/
theorem run_cmdEvent_engine {s : State} {v : Word} {rest : List Event} (hbusy : s.inflight ≠ .none)
    (h : s.inputs = cmdEvent v :: .engine :: rest) :
    Host.Core.run core 2 s = .next (engineStep { taken s rest with ovr := true }) := by
  have hfirst : step s = .next (taken s (.engine :: rest)).setOverrun := by
    rw [step_cmdEvent h, writeCmd_busy (s := taken s (.engine :: rest)) v hbusy]
  have hsecond : step (taken s (.engine :: rest)).setOverrun = .next (engineStep { taken s rest with ovr := true }) :=
    step_engine rfl
  exact (run_succ (M := core) 1 hfirst).trans (run_succ (M := core) 0 hsecond)

/-- Settles O29: a busy core drops the write; an idle one ends with the code `errOf` of the word; a reset cycle ignores
the write; the two orders are two runs of two steps. -/
theorem commandChecksInTheirOrder : Obligations.CommandChecksInTheirOrder := by
  unfold Obligations.CommandChecksInTheirOrder
  refine ⟨fun s v => ⟨fun hbusy => writeCmd_busy v hbusy, fun hidle => ⟨_, writeCmd_idle v hidle, ?_⟩⟩,
    ⟨.reservedBits, decode_reservedBits (by decide)⟩,
    ⟨.lenOutsideKey, decode_lenOutsideKey (by decide) (by decide) (by decide) (by decide)⟩,
    fun s v => portCycle_reset s rfl (by simp),
    fun s v rest hbusy => ⟨run_engine_cmdEvent, run_cmdEvent_engine hbusy⟩⟩
  rw [ruleOf_clearReport_err]
  refine ⟨?illegal, ?wrongLength, ?noKey, ?accepted⟩
  case illegal =>
    rintro ⟨why, hd⟩
    rw [hd, errOf]
  case wrongLength =>
    intro len hd hlen
    rw [hd, errOf, if_neg hlen]
  case noKey =>
    rintro (hd | hd) hkeyv <;> rw [hd, errOf, if_pos hkeyv]
  case accepted =>
    rintro (hd | hd | hd | hd | ⟨hd | hd, hkeyv⟩) <;> simp [errOf, *]

/-! ### What holds the report (60_exceptions R224) -/

/-- Settles O31: in an idle core the engine's turn changes nothing and no CMD write is dropped, so of the effects of a
step only a reset and an accepted CMD write touch DONE, ERR or OVR. -/
theorem reportHoldsUntilTheNextCommand : Obligations.ReportHoldsUntilTheNextCommand := by
  unfold Obligations.ReportHoldsUntilTheNextCommand
  intro s t h hidle
  cases step_effect h with
  | engine l _ =>
    rw [engineStep_none hidle]
    exact .inl ⟨rfl, rfl, rfl⟩
  | reset l hr => exact .inr (.inl hr)
  | shows l v => exact .inl ⟨rfl, rfl, rfl⟩
  | writesKey l j v _ => exact .inl ⟨rfl, rfl, rfl⟩
  | writesDin l j v _ => exact .inl ⟨rfl, rfl, rfl⟩
  | dropped l v hbusy _ => exact absurd hidle hbusy
  | accepted l v _ hw => exact .inr (.inr (commandTurn_of_accepted hidle hw))

/-! ### The turns that are refused (70_reset R253, R264) -/

theorem step_next_iff (s : State) :
    (∃ t, step s = .next t) ↔ ∀ e rest, s.inputs = e :: rest → e.admitted = true := by
  cases hl : s.inputs with
  | nil => exact ⟨fun _ => nofun, fun _ => ⟨_, step_nil hl⟩⟩
  | cons e rest =>
    rw [step_cons hl, runEvent_next_iff]
    constructor
    · rintro he _ _ ⟨rfl, rfl⟩
      exact he
    · exact fun h => h e rest rfl

/-- A cycle with both enables is refused, with rst = 1 too (R253b). -/
theorem portCycle_refuses_bothEnables {sig : Signals} (s : State) (hrd : sig.rdEn = true) (hwr : sig.wrEn = true) :
    portCycle sig s = .refused .bothEnables := by
  rw [portCycle, if_pos ⟨hrd, hwr⟩]

/-- A bus access is refused for its own shape, or as the port cycle it becomes is. -/
theorem busAccess_refused {base addr size : Nat} {sig : BitVec 6 → Signals} {s : State} {r : Refusal}
    (h : busAccess base addr size sig s = .refused r) : r = .bothEnables ∨ r = .narrowOrMisaligned := by
  unfold busAccess at h
  split at h
  · exact .inl (portCycle_refused h).left
  · exact .inl (portCycle_refused h).left
  · cases h
    exact .inr rfl

theorem runEvent_refused {e : Event} {s : State} {r : Refusal} (h : runEvent e s = .refused r) :
    r = .bothEnables ∨ r = .narrowOrMisaligned := by
  cases e with
  | cycle sig => exact .inl (portCycle_refused h).left
  | busRead addr size => exact busAccess_refused h
  | busWrite addr bytes => exact busAccess_refused h
  | engine => cases h

theorem step_refused {s : State} {r : Refusal} (h : step s = .refused r) :
    r = .bothEnables ∨ r = .narrowOrMisaligned := by
  cases hl : s.inputs with
  | nil => cases (step_nil hl).symm.trans h
  | cons e rest => exact runEvent_refused ((step_cons hl).symm.trans h)

/-- Settles O39: the next turn decides whether the step is taken; no fault exists; a refusal is that of a cycle or of a
bus access. -/
theorem refusedExactlyOnBrokenDuties : Obligations.RefusedExactlyOnBrokenDuties := by
  unfold Obligations.RefusedExactlyOnBrokenDuties
  exact fun s => ⟨step_next_iff s, nofun,
    fun sig rest hl hrd hwr => (step_cons hl).trans (portCycle_refuses_bothEnables _ hrd hwr),
    fun r => step_refused⟩

end Sys2Proof.Machine

/-! Reset, and the key that a second KEY finds (70_reset R250 to R252, R257). -/

namespace Sys2Proof.Machine

open Sys2Proof.Claims

/-! ### The reset state (70_reset R250 to R252) -/

/-- The turn of a reset cycle is the Reset step, which keeps only the turns after it. -/
theorem step_resetCycle {s : State} {sig : Signals} {rest : List Event} (h : s.inputs = .cycle sig :: rest)
    (hrst : sig.rst = true) (henables : ¬(sig.rdEn = true ∧ sig.wrEn = true)) :
    step s = .next { State.reset with inputs := rest } :=
  calc step s = portCycle sig (s.setInputs rest) := step_cons h
    _ = .next (resetCore (s.setInputs rest)) := portCycle_reset _ hrst henables

/-- The identity slots read alike in any two states (10_state R21). -/
theorem portRead_id_congr {idx : BitVec 6} (h : idx.toNat < 3) (s t : State) : portRead idx t = portRead idx s := by
  have hslot : slotAt idx = some (.id ⟨idx.toNat, h⟩) := (slotAt_id_iff idx ⟨idx.toNat, h⟩).mpr rfl
  rw [portRead_of_slotAt hslot, portRead_of_slotAt hslot, readReg, readReg]

/-- With no flag and no error STATUS reads 0 (R252). -/
theorem statusOf_clear : statusOf 0 false false false false = 0 := by decide

/-- Settles O1: a reset cycle is the Reset step; the reset state's fields are `State.reset`'s, and its reads and the
engine's turn are those of an idle core with a clear report. -/
theorem resetTakesTheResetState : Obligations.ResetTakesTheResetState := by
  unfold Obligations.ResetTakesTheResetState
  refine ⟨fun s sig rest => step_resetCycle, fun t ht => ?_⟩
  rw [IsReset] at ht
  rw [ht]
  have hrk : ∀ (i : Nat) (h : i < 32), State.reset.rk[i] = 0 := fun i h => Vector.getElem_replicate h
  have hstatus : portRead 3 { State.reset with inputs := t.inputs } = 0 :=
    (portRead_of_slotAt (slotAt_index .status) _).trans statusOf_clear
  exact ⟨rfl, rfl, rfl, rfl, rfl, rfl, rfl, rfl, rfl, hrk, fun s idx h => portRead_id_congr h s _,
    engineStep_none rfl, hstatus⟩

/-! ### KEY consumes the key registers (70_reset R257) -/

/-- The four zero words are the all-zero key. -/
theorem quadBytes_zero : quadBytes ⟨0, 0, 0, 0⟩ = List.replicate 16 0 := by decide

/-- The completion of a KEY leaves the key registers as acceptance did, all 0. -/
theorem engineStep_launchKey_key (s : State) : (engineStep (launchKey s)).key = ⟨0, 0, 0, 0⟩ :=
  engineStep_keyRegisters (launchKey s)

/-- The key slots are write-only (20_memory R54). -/
theorem portRead_key {idx : BitVec 6} (hlow : 8 ≤ idx.toNat) (hhigh : idx.toNat < 12) (s : State) :
    portRead idx s = 0 := by
  have hslot : slotAt idx = some (.key ⟨idx.toNat - 8, by omega⟩) :=
    (slotAt_key_iff idx _).mpr (Nat.add_sub_of_le hlow).symm
  exact portRead_of_slotAt hslot s

/-- Settles O38: the first KEY's completion leaves the core idle with the key registers 0, and the second KEY derives
the schedule of what it finds there. -/
theorem secondKeyUsesTheZeroKey : Obligations.SecondKeyUsesTheZeroKey := by
  unfold Obligations.SecondKeyUsesTheZeroKey
  refine ⟨fun s hidle => ?_, fun s idx hlow hhigh => portRead_key hlow hhigh s⟩
  have hidle' : (engineStep (launchKey s)).inflight = .none := engineStep_inflight _
  refine ⟨_, _, exec_key_sixteen hidle, rfl, exec_key_sixteen hidle', ?_⟩
  rw [engineStep_launchKey hidle', engineStep_launchKey_key, quadBytes_zero]
  exact ⟨rfl, rfl⟩

end Sys2Proof.Machine
